-- ==== Sys2Proof/Word.lean ====
section
/-! DEFINITION. The widths FRX computes with (00_scope.md R7, R8). -/

namespace Sys2Proof

/-- A host register and a host write: 32 bits (R7). -/
abbrev Word := BitVec 32

/-- An assembled frame: 24 bits (R6 `FRAME_BITS`, R7). -/
abbrev Frame := BitVec 24

/-- The 24-entry bit array of R45, and the 24 serial bits s[0..23] of a conversion (R125), in order
of reception. -/
abbrev SerialBits := Vector Bool 24

end Sys2Proof
end

