-- ==== Sys2Proof/Config.lean ====
section
/-! DEFINITION. What the integrator fixes (the parameters of 00_scope.md R6) and what the spec leaves free
(the `draw` values of R9): the latter are opaque constants, so nothing can be proved of a value of theirs. -/

namespace Sys2Proof

/-- The device's amplifier channel (R11 "enumerated (A, B)", R25). -/
inductive Channel where
  | a
  | b
deriving DecidableEq, Repr

/-- Gain and channel in one value (R25): the document's "single enumerated `GainChannel` variant". -/
inductive GainChannel where
  /-- code 0: gain 128, channel A -/
  | g128
  /-- code 1: gain 64, channel A -/
  | g64
  /-- code 2: gain 32, channel B -/
  | g32
deriving DecidableEq, Repr, Inhabited

/-- The implementation parameters of 00_scope.md R6. Every duration counts rising edges of `clk`. -/
structure Params where
  /-- `F_CLK`, OPEN; no rule uses it (R257) -/
  fClk : Nat
  /-- `T_HIGH`: cycles per pulse with `sck` = 1 -/
  tHigh : Nat
  /-- `T_LOW`: cycles per pulse with `sck` = 0 -/
  tLow : Nat
  /-- `SYNC_STAGES` = S -/
  syncStages : Nat
  /-- `T_SAMPLE`: edge of data capture after the assertion edge -/
  tSample : Nat
  /-- `T_PD`: power-down hold cycles -/
  tPd : Nat
  /-- `T_PU`: power-up settle cycles -/
  tPu : Nat
  /-- `READY_LEVEL` -/
  readyLevel : Bool
  /-- `TIMEOUT_RESET` -/
  timeoutReset : Word
  /-- `T_DV`: the device's data-valid delay -/
  tDv : Nat
  /-- `T_DEV_PD`: cycles of asserted clock after which the device powers down -/
  tDevPd : Nat
  /-- `T_FRAME_MAX`: the window in which a frame must complete -/
  tFrameMax : Nat
deriving DecidableEq, Repr

namespace Config

/-- Parameter set B of 95_test_vectors.md, with the spec's defaults S = 2 and `READY_LEVEL` = 0 (R6); the set
`State.reset` carries. DESIGN CHOICE (log entry 1): most of these are OPEN in R6; `F_CLK` = 1 is a placeholder no rule reads. -/
def setB : Params :=
  { fClk := 1, tHigh := 3, tLow := 2, syncStages := 2, tSample := 3, tPd := 4, tPu := 3,
    readyLevel := false, timeoutReset := 16, tDv := 0, tDevPd := 4, tFrameMax := 135 }

/-- Parameter set A of 95_test_vectors.md (no synchronizer). -/
def setA : Params :=
  { fClk := 1, tHigh := 2, tLow := 2, syncStages := 0, tSample := 1, tPd := 3, tPu := 3,
    readyLevel := false, timeoutReset := 16, tDv := 0, tDevPd := 3, tFrameMax := 108 }

/-! The draws of the device agent (R13, R125 to R131), each applied to the plain counter `State.draws`,
which every edge advances, so that each edge draws afresh (log entry 4). -/

/-- U2: is the device on at FRX reset? -/
opaque drawOn : Nat → Bool
/-- U2: is a conversion available at FRX reset; R126, U9: does one become available in this cycle? -/
opaque drawAvail : Nat → Bool
/-- U10, U12, U13: the data-line level in a cycle where no rule gives it. -/
opaque drawLine : Nat → Bool
/-- U2, U11, U12: the device's gain where no rule gives it. -/
opaque drawGain : Nat → GainChannel
/-- R126, U9: the 24 serial bits of a conversion. -/
opaque drawBits : Nat → SerialBits
/-- U2: the rising edges the device has counted at FRX reset. -/
opaque drawCount : Nat → Nat
/-- U2: how long the device has seen `sck` high at FRX reset. -/
opaque drawHigh : Nat → Nat
/-- U2: how much of a frame window is left at FRX reset. -/
opaque drawWindow : Nat → Nat
/-- U2: how long ago the last rising edge of a frame was that is open at FRX reset (R127). -/
opaque drawLag : Nat → Nat

end Config
end Sys2Proof
end

