-- ==== Sys2Proof/Syntax.lean ====
section
/-! DEFINITION. The instructions of spec/opcode_table.json (nine CMD words, sixteen bus accesses), the two
formats their bits come in, and the host-program notation of 30_encoding.md R100 to R103. -/

namespace Sys2Proof

/-- One constructor per row of spec/opcode_table.json. -/
inductive Instr where
  /-- CMD word 0x00000000 (R155) -/
  | nop
  /-- CMD word 0x00000001 (R156) -/
  | acquire
  /-- CMD word 0x00000002 + (GSEL << 4) (R170) -/
  | setGain (gsel : BitVec 2)
  /-- CMD word 0x00000032: SET_GAIN with GSEL = 3 (R94) -/
  | badGain
  /-- CMD word 0x00000003 (R174) -/
  | powerDown
  /-- CMD word 0x00000004 (R178) -/
  | powerUp
  /-- CMD word 0x00000005 (R185) -/
  | resetDev
  /-- A CMD word with OP = 6 and `rest` in bits [31:3] (R94) -/
  | illegalOp6 (rest : BitVec 29)
  /-- A CMD word with OP = 7 and `rest` in bits [31:3] (R94) -/
  | illegalOp7 (rest : BitVec 29)
  /-- `0 000` (R62) -/
  | rdCfg
  /-- `0 001` (R62) -/
  | rdCmd
  /-- `0 010` (R62) -/
  | rdStatus
  /-- `0 011` (R62) -/
  | rdData
  /-- `0 100` (R62) -/
  | rdRaw
  /-- `0 101` (R62) -/
  | rdTimeout
  /-- `0 110` (R62) -/
  | rdRsvd6
  /-- `0 111` (R62) -/
  | rdId
  /-- `1 000 : v` (R68) -/
  | wrCfg (v : Word)
  /-- `1 001 : v` (R64): a CMD write of any word, decoded further by R90 -/
  | wrCmd (v : Word)
  /-- `1 010 : v` (R66) -/
  | wrStatus (v : Word)
  /-- `1 011 : v` (R67) -/
  | wrData (v : Word)
  /-- `1 100 : v` (R67) -/
  | wrRaw (v : Word)
  /-- `1 101 : v` (R69) -/
  | wrTimeout (v : Word)
  /-- `1 110 : v` (R67) -/
  | wrRsvd6 (v : Word)
  /-- `1 111 : v` (R67) -/
  | wrId (v : Word)
deriving DecidableEq, Repr

/-- The two formats of spec/opcode_table.json. Both are bus accesses: a CMD32 word is the data of a write to
CMD (R99). -/
inductive HostWord where
  /-- format CMD32: the command word of a CMD write -/
  | cmd32 (word : Word)
  /-- format BUSOP: the pattern `w a2 a1 a0` of R99 and the write data (no meaning for a read) -/
  | busop (pattern : BitVec 4) (wdata : Word)
deriving DecidableEq, Repr

/-- The eight register indices of 20_memory.md R60. -/
inductive Reg where
  | cfg
  | cmd
  | status
  | data
  | raw
  | timeout
  | rsvd6
  | id
deriving DecidableEq, Repr

/-- The named fields of CFG (R22) and STATUS (R24), for `POLL` (R102). -/
inductive Field where
  | bitord
  | byteord
  | irqen
  | busy
  | done
  | err
  | pwr
  | gain
  | devg
  | dtag
  | valid
  | ovr
  | din
  | sck
deriving DecidableEq, Repr

/-- The mnemonics `CMD` takes (R91, R101). -/
inductive CmdName where
  | nop
  | acquire
  | setGain
  | powerDown
  | powerUp
  | resetDev
deriving DecidableEq, Repr

/-- One line of a host program (R100 to R103). -/
inductive HostLine where
  /-- a line with no access: an idle edge -/
  | idle
  /-- `WR <reg>, <value>` -/
  | wr (reg : Reg) (value : Word)
  /-- `RD <reg>` -/
  | rd (reg : Reg)
  /-- `CMD <mnemonic>`, with `g=<gain>` where given -/
  | cmd (name : CmdName) (g : Option Nat)
  /-- `POLL <reg>.<field> == <v>` -/
  | poll (field : Field) (value : Nat)
  /-- `WAITDONE` -/
  | waitDone
  /-- `CMDW <mnemonic>` -/
  | cmdw (name : CmdName) (g : Option Nat)
  /-- `W1C <fields>` -/
  | w1c (done ovr : Bool)
deriving DecidableEq, Repr

end Sys2Proof
end

