-- ==== Sys2Proof/WellFormed.lean ====
section
/-! DEFINITION. When a constructor's operand is one its row of spec/opcode_table.json admits. -/

namespace Sys2Proof

/-- SET_GAIN's operand is a gain code 0 to 2: with GSEL = 3 the word is BADGAIN's (30_encoding.md R90, R99).
Every other operand may have every value. -/
def Instr.wellFormed : Instr → Bool
  | .setGain gsel => gsel != 3
  | .nop | .acquire | .badGain | .powerDown | .powerUp | .resetDev => true
  | .illegalOp6 _ | .illegalOp7 _ => true
  | .rdCfg | .rdCmd | .rdStatus | .rdData | .rdRaw | .rdTimeout | .rdRsvd6 | .rdId => true
  | .wrCfg _ | .wrCmd _ | .wrStatus _ | .wrData _ | .wrRaw _ | .wrTimeout _ | .wrRsvd6 _ | .wrId _ => true

end Sys2Proof
end

