-- ==== Sys2Proof/Decode.lean ====
section
/-! DEFINITION. Decoding of host accesses (30_encoding.md R90 to R94, R99), total on both formats, and after it
the encoder and the layout of table words. -/

namespace Sys2Proof

/-- A mask and a match of spec/opcode_table.json. -/
structure CmdRow where
  mnemonic : String
  pattern : Word
  mask : Word
deriving DecidableEq, Repr

namespace Decode

/-- Does the word have the row's bits? -/
def rowFits (r : CmdRow) (w : Word) : Bool := w &&& r.mask == r.pattern

def nopRow : CmdRow := ⟨"NOP", 0x00000000, 0xFFFFFFFF⟩
def acquireRow : CmdRow := ⟨"ACQUIRE", 0x00000001, 0xFFFFFFFF⟩
def setGainRow : CmdRow := ⟨"SET_GAIN", 0x00000002, 0xFFFFFFCF⟩
def badGainRow : CmdRow := ⟨"BADGAIN", 0x00000032, 0xFFFFFFFF⟩
def powerDownRow : CmdRow := ⟨"POWER_DOWN", 0x00000003, 0xFFFFFFFF⟩
def powerUpRow : CmdRow := ⟨"POWER_UP", 0x00000004, 0xFFFFFFFF⟩
def resetDevRow : CmdRow := ⟨"RESET_DEV", 0x00000005, 0xFFFFFFFF⟩
def illegalOp6Row : CmdRow := ⟨"ILLEGAL_OP6", 0x00000006, 0x00000007⟩
def illegalOp7Row : CmdRow := ⟨"ILLEGAL_OP7", 0x00000007, 0x00000007⟩

/-- The nine CMD32 rows of spec/opcode_table.json. -/
def cmdRows : List CmdRow :=
  [nopRow, acquireRow, setGainRow, badGainRow, powerDownRow, powerUpRow, resetDevRow, illegalOp6Row, illegalOp7Row]

/-- A CMD word by the table's rows; BADGAIN is taken before SET_GAIN, whose mask it also fits (R99). A word that
no row fits is a CMD write of an ILLEGAL word (R99), which `wrCmd` carries whole. -/
def cmdWord (w : Word) : Instr :=
  if rowFits nopRow w then .nop
  else if rowFits acquireRow w then .acquire
  else if rowFits badGainRow w then .badGain
  else if rowFits setGainRow w then .setGain (w.extractLsb' 4 2)
  else if rowFits powerDownRow w then .powerDown
  else if rowFits powerUpRow w then .powerUp
  else if rowFits resetDevRow w then .resetDev
  else if rowFits illegalOp6Row w then .illegalOp6 (w.extractLsb' 3 29)
  else if rowFits illegalOp7Row w then .illegalOp7 (w.extractLsb' 3 29)
  else .wrCmd w

/-- The register at a 3-bit index (R60). -/
def regAt (index : BitVec 3) : Reg :=
  match index.toNat with
  | 0 => .cfg
  | 1 => .cmd
  | 2 => .status
  | 3 => .data
  | 4 => .raw
  | 5 => .timeout
  | 6 => .rsvd6
  | _ => .id

/-- The index of a register (R60). -/
def indexOf : Reg → BitVec 3
  | .cfg => 0
  | .cmd => 1
  | .status => 2
  | .data => 3
  | .raw => 4
  | .timeout => 5
  | .rsvd6 => 6
  | .id => 7

/-- The read of a register (pattern `0 aaa`, R99). -/
def readOf : Reg → Instr
  | .cfg => .rdCfg
  | .cmd => .rdCmd
  | .status => .rdStatus
  | .data => .rdData
  | .raw => .rdRaw
  | .timeout => .rdTimeout
  | .rsvd6 => .rdRsvd6
  | .id => .rdId

/-- The write of a register (pattern `1 aaa`, R99). -/
def writeOf (v : Word) : Reg → Instr
  | .cfg => .wrCfg v
  | .cmd => .wrCmd v
  | .status => .wrStatus v
  | .data => .wrData v
  | .raw => .wrRaw v
  | .timeout => .wrTimeout v
  | .rsvd6 => .wrRsvd6 v
  | .id => .wrId v

/-- A bus access by its pattern `w a2 a1 a0` (R99). -/
def busAccess (pattern : BitVec 4) (wdata : Word) : Instr :=
  let reg := regAt (pattern.extractLsb' 0 3)
  if pattern.getLsbD 3 then writeOf wdata reg else readOf reg

end Decode

/-- The decoder: total, since every one of the 2^32 command words and every access has an outcome (R94, R99). -/
def decode : HostWord → Instr
  | .cmd32 w => Decode.cmdWord w
  | .busop pattern wdata => Decode.busAccess pattern wdata

/-- The port signals of R20 that a host word puts on the bus at its edge. -/
structure PortSignals where
  wrEn : Bool
  addr : BitVec 3
  wdata : Word
deriving DecidableEq, Repr

/-- R99, R101: a CMD32 word is the data of a write (`wr_en` = 1) to index 1. -/
def portSignals : HostWord → PortSignals
  | .cmd32 w => ⟨true, 1, w⟩
  | .busop pattern wdata => ⟨pattern.getLsbD 3, pattern.extractLsb' 0 3, wdata⟩

/-- Why bits are not a host word. -/
inductive Reject where
  /-- no format has this many bits -/
  | noSuchFormat (nbits : Nat)
  /-- a bit is set that the format does not have -/
  | strayBits
deriving DecidableEq, Repr

namespace Decode

/-- Bits laid out as spec/opcode_table.json numbers them (DESIGN CHOICE, log entry 6): 32 bits are a CMD32 word; 8 bits (or the
table's bare 4) are a BUSOP pattern in bits [3:0] with write data 0; 40 bits are that byte, then `wdata` in [39:8]. -/
def hostWord (nbits w : Nat) : Except Reject HostWord :=
  if nbits = 32 then
    if w < 2 ^ 32 then .ok (.cmd32 (BitVec.ofNat 32 w)) else .error .strayBits
  else if nbits = 8 ∨ nbits = 4 then
    if w < 16 then .ok (.busop (BitVec.ofNat 4 w) 0) else .error .strayBits
  else if nbits = 40 then
    if w % 256 < 16 ∧ w < 2 ^ 40 then .ok (.busop (BitVec.ofNat 4 w) (BitVec.ofNat 32 (w / 256))) else .error .strayBits
  else .error (.noSuchFormat nbits)

end Decode

/-- The instruction the decoder reads from a table word (the host's check). -/
def decodeTableWord (nbits w : Nat) : Option Instr :=
  match Decode.hostWord nbits w with
  | .ok word => some (decode word)
  | .error _ => none

namespace Encode

/-- The pattern of R99 for an access: `w` above the register's index. -/
def pattern (w : Bool) (reg : Reg) : BitVec 4 := BitVec.ofBool w ++ Decode.indexOf reg

/-- The command word of R92 from its fields: `v[31:3]` above OP. -/
def opWord (rest : BitVec 29) (op : BitVec 3) : Word := rest ++ op

end Encode

/-- The encoder, from the tables of 30_encoding.md R91, R93 and R99. -/
def encode : Instr → HostWord
  | .nop => .cmd32 0x00000000
  | .acquire => .cmd32 0x00000001
  | .setGain gsel => .cmd32 (0x00000002 + (gsel.zeroExtend 32 <<< 4))
  | .badGain => .cmd32 0x00000032
  | .powerDown => .cmd32 0x00000003
  | .powerUp => .cmd32 0x00000004
  | .resetDev => .cmd32 0x00000005
  | .illegalOp6 rest => .cmd32 (Encode.opWord rest 6)
  | .illegalOp7 rest => .cmd32 (Encode.opWord rest 7)
  | .rdCfg => .busop (Encode.pattern false .cfg) 0
  | .rdCmd => .busop (Encode.pattern false .cmd) 0
  | .rdStatus => .busop (Encode.pattern false .status) 0
  | .rdData => .busop (Encode.pattern false .data) 0
  | .rdRaw => .busop (Encode.pattern false .raw) 0
  | .rdTimeout => .busop (Encode.pattern false .timeout) 0
  | .rdRsvd6 => .busop (Encode.pattern false .rsvd6) 0
  | .rdId => .busop (Encode.pattern false .id) 0
  | .wrCfg v => .busop (Encode.pattern true .cfg) v
  | .wrCmd v => .busop (Encode.pattern true .cmd) v
  | .wrStatus v => .busop (Encode.pattern true .status) v
  | .wrData v => .busop (Encode.pattern true .data) v
  | .wrRaw v => .busop (Encode.pattern true .raw) v
  | .wrTimeout v => .busop (Encode.pattern true .timeout) v
  | .wrRsvd6 v => .busop (Encode.pattern true .rsvd6) v
  | .wrId v => .busop (Encode.pattern true .id) v

end Sys2Proof
end

