-- ==== Sys2Proof/Machine/Line.lean ====
section
/-! DEFINITION. The device's state and the level it drives on the data line (41_bit_transport.md R125 to R128, R130), and the
draw of that state at FRX reset. -/

namespace Sys2Proof.Machine

/-- What drives the data line while a device frame runs (R127, R128). -/
inductive LineSource where
  /-- no rule gives the level: a draw -/
  | unknown
  /-- the serial bit s[n] -/
  | bit (n : Fin 24)
  /-- NOT `READY_LEVEL` -/
  | notReady
deriving DecidableEq, Repr

/-- The device agent (R125), and the bookkeeping its timing rules need (log entries 10 to 16). -/
structure Device where
  on : Bool
  dgain : GainChannel
  avail : Bool
  /-- the conversion's serial bits s[0..23] -/
  w : SerialBits
  /-- rising edges of `sck` in the current frame -/
  c : Nat
  /-- consecutive cycles `sck` has been 1 -/
  h : Nat
  /-- cycles until the frame window closes; 0 when no frame is open (R129) -/
  window : Nat
  /-- what drives the line in a frame -/
  shown : LineSource
  /-- sources that take over the line after so many cycles, oldest first (`T_DV`, R127, R128) -/
  lag : List (Nat × LineSource)
  /-- undetermined line levels still to come after a stray rising edge (R127) -/
  stray : Nat
  /-- the level of `dout` in the current cycle -/
  line : Bool
deriving DecidableEq, Repr

/-- What a frame's c-th rising edge puts on the line (R127, R128); before the first, nothing a rule gives. -/
def sourceAfter (c : Nat) : LineSource :=
  if c = 0 then .unknown else if h : c - 1 < 24 then .bit ⟨c - 1, h⟩ else .notReady

/-- The data line in a cycle (R126 to R128, R130): READY exactly when a conversion is available, outside a frame. -/
def lineLevel (p : Params) (draw : Nat) (d : Device) : Bool :=
  if !d.on || d.stray != 0 then Config.drawLine draw
  else if d.c = 0 then (if d.avail then p.readyLevel else !p.readyLevel)
  else
    match d.shown with
    | .unknown => Config.drawLine draw
    | .bit n => d.w[n.val]
    | .notReady => !p.readyLevel

/-- The cycles until the line shows what a drawn frame's last rising edge puts on it: up to `T_DV` (R127). -/
def drawnWait (par : Params) (draw : Nat) : Nat := Config.drawLag draw % (par.tDv + 1)

/-- The device at FRX reset: a draw in each of R125's six fields (U2), and the line they give (DEDUCED, log entry 16). A frame
that is open has some of its window left, and shows what its last rising edge puts on the line, or still what the one before
it did; `stray` levels are still undetermined. -/
def Device.drawn (par : Params) (draw stray : Nat) : Device :=
  let c := Config.drawCount draw
  let wait := drawnWait par draw
  let d : Device :=
    { on := Config.drawOn draw, dgain := Config.drawGain draw, avail := Config.drawAvail draw, w := Config.drawBits draw,
      c := c, h := Config.drawHigh draw,
      window := if c = 0 then 0 else Config.drawWindow draw % par.tFrameMax + 1,
      shown := sourceAfter (if wait = 0 then c else c - 1),
      lag := if wait = 0 then [] else [(wait, sourceAfter c)],
      stray := stray, line := !par.readyLevel }
  { d with line := lineLevel par draw d }

end Sys2Proof.Machine
end

