-- ==== Sys2Proof/Machine/State.lean ====
section
/-! DEFINITION. The state of FRX and of the host's side of the port, beside the device's of Machine/Line.lean, and the state
after reset (10_state.md; 70_reset_and_hazards.md R230). -/

namespace Sys2Proof.Machine

/-- The sequencer phase `seq` (R41). -/
inductive Phase where
  | idle
  | pdLow
  | pdHold
  | puSettle
  | wait
  | bitHigh
  | bitLow
  | pulseHigh
  | pulseLow
deriving DecidableEq, Repr

/-- The running command `op` (R42). -/
inductive Op where
  | none
  | acquire
  | setGain
  | powerDown
  | powerUp
  | resetDev
  | init
deriving DecidableEq, Repr

/-- DevicePowerState as STATUS.PWR records it (R24, R187). -/
inductive Power where
  | active
  | poweredDown
deriving DecidableEq, Repr

/-- The result codes of R200; codes 5 to 7 are never produced. -/
inductive Err where
  | ok
  | timeout
  | illegal
  | badGain
  | notActive
deriving DecidableEq, Repr

/-- One ordering flag of CFG (R22). -/
inductive Order where
  | msbFirst
  | lsbFirst
deriving DecidableEq, Repr

/-- The FRX block: the registers of R22 to R29 and the hidden state of R41 to R48. CMD, index 6 and ID hold no state. -/
structure Frx where
  /-- CFG.BITORD -/
  bitord : Order
  /-- CFG.BYTEORD -/
  byteord : Order
  /-- CFG.IRQEN -/
  irqen : Bool
  /-- TIMEOUT -/
  timeout : Word
  /-- STATUS.DONE -/
  done : Bool
  /-- STATUS.ERR -/
  err : Err
  /-- STATUS.PWR -/
  pwr : Power
  /-- STATUS.GAIN; code 3 is never held (R26) -/
  gain : GainChannel
  /-- STATUS.DEVG; `none` is code 3, unknown -/
  devg : Option GainChannel
  /-- STATUS.DTAG; `none` is code 3, unknown -/
  dtag : Option GainChannel
  /-- STATUS.VALID -/
  valid : Bool
  /-- STATUS.OVR -/
  ovr : Bool
  /-- DATA -/
  data : Word
  /-- RAW -/
  raw : Word
  seq : Phase
  tmr : Nat
  op : Op
  discard : Bool
  wcnt : Word
  /-- index of the current data pulse -/
  n : Fin 24
  /-- index of the current gain pulse -/
  k : Fin 3
  sbits : SerialBits
  /-- the registered clock output, which the port `sck` equals (R47) -/
  sckQ : Bool
  /-- the synchronizer chain, `sync[0]` first (R48) -/
  sync : List Bool
deriving DecidableEq, Repr

/-- What the outside world presents to FRX at one edge, or (`poll`) at the edges until a field matches. -/
inductive EdgeInput where
  /-- `rst` = 1, which overrides any access beside it (R212) -/
  | rst
  /-- an edge with no access (R100) -/
  | idle
  /-- one bus access (R63, R99) -/
  | access (word : HostWord)
  /-- `POLL <reg>.<field> == <value>` (R102) -/
  | poll (field : Field) (value : Nat)
deriving DecidableEq, Repr

/-- The whole machine: the three agents of 00_scope.md R13 and the parameters of R6. -/
structure State where
  /-- the parameters; no step changes them (DESIGN CHOICE, log entry 1) -/
  par : Params
  /-- an edge with `rst` = 1 has been seen (R232; DEDUCED, log entry 2) -/
  resetSeen : Bool
  frx : Frx
  dev : Device
  /-- the host's coming accesses, the next edge's first (DESIGN CHOICE, log entry 5) -/
  port : List EdgeInput
  /-- the value the host's last read returned (R62; DESIGN CHOICE, log entry 7) -/
  lastRead : Word
  /-- how many edges have drawn; the argument of every draw (DESIGN CHOICE, log entry 4) -/
  draws : Nat
deriving DecidableEq, Repr

/-- FRX has no fault: no access faults (R205), there is no trap (R213), and an error is a completion code (R200).
The type has no constructor (DEDUCED, log entry 19). -/
inductive Fault where
deriving DecidableEq, Repr

/-- Why the model gives a step no meaning. -/
inductive Refusal where
  /-- raised by exec's arm of an instruction that has no meaning yet; safe -/
  | notModelled (mnemonic : String)
  /-- raised by every edge under parameters that break R6 (U3: a model must refuse them); safe -/
  | parametersBreakConstraints
  /-- raised by an edge with `rst` = 0 before the first edge with `rst` = 1 (R232, U1: a model must refuse the run); safe -/
  | runBeganWithoutReset
deriving DecidableEq, Repr

/-- The block after an edge with `rst` = 1 (R230). -/
def Frx.reset (par : Params) : Frx :=
  { bitord := .msbFirst, byteord := .msbFirst, irqen := false, timeout := par.timeoutReset,
    done := false, err := .ok, pwr := .active, gain := .g128, devg := none, dtag := none, valid := false, ovr := false,
    data := 0, raw := 0, seq := .puSettle, tmr := par.tPu, op := .init, discard := true, wcnt := 0, n := 0, k := 0,
    sbits := Vector.replicate 24 false, sckQ := false, sync := List.replicate par.syncStages (!par.readyLevel) }

/-- The machine right after a run's first reset edge (R230), under parameter set B (log entry 1), with no host access waiting.
The device is a draw, on or off: FRX had no state before (R232, U24; log entry 16). -/
def State.reset : State :=
  { par := Config.setB, resetSeen := true, frx := Frx.reset Config.setB, dev := Device.drawn Config.setB 0 0,
    port := [], lastRead := 0, draws := 1 }

end Sys2Proof.Machine
end

