-- ==== Sys2Proof/Machine/Parameters.lean ====
section
/-! DEFINITION. The ranges and constraints of the parameters (00_scope.md R6), outside which the model refuses. -/

namespace Sys2Proof.Machine

/-- `T_BIT` = `T_HIGH` + `T_LOW`. -/
def tBit (p : Params) : Nat := p.tHigh + p.tLow

/-- The ranges of R6's table that are not one of K1 to K6. -/
abbrev paramRanges (p : Params) : Prop :=
  1 ≤ p.tHigh ∧ 1 ≤ p.tLow ∧ 1 ≤ p.tPd ∧ 1 ≤ p.tPu ∧ 1 ≤ p.tDevPd

/-- S + 1 + `T_DV` ≤ `T_SAMPLE` ≤ `T_HIGH` -/
abbrev constraintK1 (p : Params) : Prop := p.syncStages + 1 + p.tDv ≤ p.tSample ∧ p.tSample ≤ p.tHigh
/-- `T_HIGH` < `T_DEV_PD` -/
abbrev constraintK2 (p : Params) : Prop := p.tHigh < p.tDevPd
/-- `T_PD` ≥ `T_DEV_PD` -/
abbrev constraintK3 (p : Params) : Prop := p.tDevPd ≤ p.tPd
/-- 27 · `T_BIT` ≤ `T_FRAME_MAX` -/
abbrev constraintK4 (p : Params) : Prop := 27 * tBit p ≤ p.tFrameMax
/-- S + `T_DV` ≤ `T_BIT` + 1 -/
abbrev constraintK5 (p : Params) : Prop := p.syncStages + p.tDv ≤ tBit p + 1
/-- `T_PU` ≥ S -/
abbrev constraintK6 (p : Params) : Prop := p.syncStages ≤ p.tPu

/-- The parameter sets the model gives a meaning to. -/
def paramsLegal (p : Params) : Bool :=
  decide (paramRanges p ∧ constraintK1 p ∧ constraintK2 p ∧ constraintK3 p ∧ constraintK4 p ∧ constraintK5 p ∧ constraintK6 p)

end Sys2Proof.Machine
end

