-- ==== Sys2Proof/Machine/Operands.lean ====
section
/-! DEFINITION. The operand forms: the gain code (10_state.md R25), the fields of a command word and the verdict on
it (30_encoding.md R90), and the fields of register writes. -/

namespace Sys2Proof.Machine

/-- The 2-bit gain code (R25). -/
def gainCode : GainChannel → BitVec 2
  | .g128 => 0
  | .g64 => 1
  | .g32 => 2

/-- The gain a code names; code 3 names none (R25). -/
def gainOfCode (code : BitVec 2) : Option GainChannel :=
  match code.toNat with
  | 0 => some .g128
  | 1 => some .g64
  | 2 => some .g32
  | _ => none

/-- The code of DEVG and DTAG, where 3 is "unknown" (R25). -/
def gainTagCode : Option GainChannel → BitVec 2
  | none => 3
  | some g => gainCode g

/-- The amplifier multiplier (R25). -/
def gainFactor : GainChannel → Nat
  | .g128 => 128
  | .g64 => 64
  | .g32 => 32

/-- The gain a factor names, for `g=<gain>` (R101). -/
def gainOfFactor (factor : Nat) : Option GainChannel :=
  if factor = 128 then some .g128 else if factor = 64 then some .g64 else if factor = 32 then some .g32 else none

/-- The channel a gain selects (R25). -/
def channelOf : GainChannel → Channel
  | .g128 => .a
  | .g64 => .a
  | .g32 => .b

/-- P(g), the gain-pulse encoder (R147). -/
def pulses : GainChannel → Nat
  | .g128 => 1
  | .g64 => 3
  | .g32 => 2

/-- OP = v[2:0] (R92). -/
def cmdOp (v : Word) : BitVec 3 := v.extractLsb' 0 3
/-- GSEL = v[5:4] (R92). -/
def cmdGsel (v : Word) : BitVec 2 := v.extractLsb' 4 2
/-- RES = v[31:6] above v[3], 27 bits (R90). -/
def cmdRes (v : Word) : BitVec 27 := v.extractLsb' 6 26 ++ v.extractLsb' 3 1

/-- The verdict on a command word (R90). -/
inductive Verdict where
  | illegal
  | badGain
  | nop
  | acquire
  | setGain (g : GainChannel)
  | powerDown
  | powerUp
  | resetDev
deriving DecidableEq, Repr

/-- The command OP names once the word is known to be legal (R91). -/
def commandOf (op : BitVec 3) (gsel : BitVec 2) : Verdict :=
  match op.toNat with
  | 0 => .nop
  | 1 => .acquire
  | 2 =>
    match gainOfCode gsel with
    | some g => .setGain g
    | none => .badGain
  | 3 => .powerDown
  | 4 => .powerUp
  | 5 => .resetDev
  | _ => .illegal

/-- R90, in its listed order. It depends on the word alone. -/
def verdict (v : Word) : Verdict :=
  if cmdOp v = 6 ∨ cmdOp v = 7 then .illegal
  else if cmdRes v ≠ 0 then .illegal
  else if cmdOp v ≠ 2 ∧ cmdGsel v ≠ 0 then .illegal
  else if cmdOp v = 2 ∧ cmdGsel v = 3 then .badGain
  else commandOf (cmdOp v) (cmdGsel v)

/-- An ordering flag from its CFG bit: 1 is LSB-first (R22). -/
def orderOfBit (b : Bool) : Order := if b then .lsbFirst else .msbFirst

/-- The CFG bit of an ordering flag (R22). -/
def orderBit : Order → Bool
  | .msbFirst => false
  | .lsbFirst => true

/-- The byte offset of a register on a byte-addressed bus (R70; DEDUCED, log entry 23). -/
def byteOffset (r : Reg) : Nat := 4 * (Decode.indexOf r).toNat

end Sys2Proof.Machine
end

