-- ==== Sys2Proof/Machine/Flags.lean ====
section
/-! DEFINITION. The status flags: BUSY, the words CFG and STATUS as a read returns them (10_state.md R22, R24), the
interrupt level (60_exceptions.md R210) and the fields `POLL` names. -/

namespace Sys2Proof.Machine

/-- BUSY, a derived value (R53). -/
def busy (f : Frx) : Bool := f.seq != .idle

/-- STATUS.ERR (R200). -/
def errCode : Err → BitVec 3
  | .ok => 0
  | .timeout => 1
  | .illegal => 2
  | .badGain => 3
  | .notActive => 4

/-- STATUS.PWR (R24). -/
def powerBit : Power → Bool
  | .active => false
  | .poweredDown => true

/-- CFG as read: IRQEN, BYTEORD, BITORD in bits [2:0], 0 above (R22). -/
def cfgWord (f : Frx) : Word :=
  0#29 ++ BitVec.ofBool f.irqen ++ BitVec.ofBool (orderBit f.byteord) ++ BitVec.ofBool (orderBit f.bitord)

/-- STATUS as read (R24), the fields from bit 31 down; `din` is the synchronized data-line level. -/
def statusWord (din : Bool) (f : Frx) : Word :=
  0#16 ++ BitVec.ofBool f.sckQ ++ BitVec.ofBool din ++ BitVec.ofBool f.ovr ++ BitVec.ofBool f.valid ++
    gainTagCode f.dtag ++ gainTagCode f.devg ++ gainCode f.gain ++ BitVec.ofBool (powerBit f.pwr) ++ errCode f.err ++
    BitVec.ofBool f.done ++ BitVec.ofBool (busy f)

/-- The interrupt level `irq` = IRQEN ∧ DONE (R210). -/
def irqLevel (f : Frx) : Bool := f.irqen && f.done

/-- The register a named field lies in (R22, R24). -/
def fieldReg : Field → Reg
  | .bitord | .byteord | .irqen => .cfg
  | .busy | .done | .err | .pwr | .gain | .devg | .dtag | .valid | .ovr | .din | .sck => .status

/-- The lowest bit of a named field and its width (R22, R24). -/
def fieldBits : Field → Nat × Nat
  | .bitord => (0, 1)
  | .byteord => (1, 1)
  | .irqen => (2, 1)
  | .busy => (0, 1)
  | .done => (1, 1)
  | .err => (2, 3)
  | .pwr => (5, 1)
  | .gain => (6, 2)
  | .devg => (8, 2)
  | .dtag => (10, 2)
  | .valid => (12, 1)
  | .ovr => (13, 1)
  | .din => (14, 1)
  | .sck => (15, 1)

/-- The value of a field in the word read from its register. -/
def fieldValue (fld : Field) (w : Word) : Nat := w.toNat / 2 ^ (fieldBits fld).1 % 2 ^ (fieldBits fld).2

end Sys2Proof.Machine
end

