-- ==== Sys2Proof/Machine/Ops.lean ====
section
/-! DEFINITION. The shared operations of the block: the data-line input, register reads and writes, acceptance and
completion of a command, and the two phase primitives. FRX takes no exception: completion (60_exceptions.md R202, R213) is
the one event by which a command ends. -/

namespace Sys2Proof.Machine

/-- `din`, the synchronized data-line level (R112, log entry 20); `line` is L(e), and also the value for a chain that is not S
stages long, which no run has (DESIGN CHOICE, log entry 18). -/
def din (p : Params) (line : Bool) (f : Frx) : Bool :=
  if p.syncStages = 0 then line else f.sync.getD (p.syncStages - 1) line

/-- The synchronizer's shift (R111): L(e) enters stage 0, and S stages are kept. -/
def shiftSync (p : Params) (line : Bool) (chain : List Bool) : List Bool := (line :: chain).take p.syncStages

/-- ID (R31). -/
def idWord : Word := 0x46525801

/-- `MemRead(i, 4)` (R62): the value of register i before the edge. -/
def readReg (p : Params) (line : Bool) (f : Frx) : Reg → Word
  | .cfg => cfgWord f
  | .cmd => 0
  | .status => statusWord (din p line f) f
  | .data => f.data
  | .raw => f.raw
  | .timeout => f.timeout
  | .rsvd6 => 0
  | .id => idWord

/-- `enter(phase, t)` (R41). -/
def enter (phase : Phase) (t : Nat) (f : Frx) : Frx := { f with seq := phase, tmr := t }

/-- `sck <- b` (R9, R47). -/
def setSck (b : Bool) (f : Frx) : Frx := { f with sckQ := b }

/-- `complete(code)` (R202). -/
def complete (code : Err) (f : Frx) : Frx := { f with seq := .idle, op := .none, done := true, err := code }

/-- A verdict that completes at the accepting edge (R96): `seq` stays IDLE. -/
def completeAtOnce (code : Err) (f : Frx) : Frx := { f with op := .none, done := true, err := code }

/-- The acceptance of a multi-cycle command (R97), before its start step. -/
def accept (op : Op) (f : Frx) : Frx := { f with op := op, done := false, err := .ok }

/-- `start_frame(d)` (R140). -/
def startFrame (d : Bool) (f : Frx) : Frx := { f with seq := .wait, wcnt := 0, discard := d }

/-- A write to CMD, CFG or TIMEOUT: dropped while BUSY, with OVR set (R65); else its effect. -/
def writeWhenIdle (effect : Frx → Frx) (f : Frx) : Frx := if f.seq = .idle then effect f else { f with ovr := true }

/-- A write to CFG while IDLE (R68): bits [2:0] alone. -/
def writeCfg (v : Word) (f : Frx) : Frx :=
  { f with bitord := orderOfBit (v.getLsbD 0), byteord := orderOfBit (v.getLsbD 1), irqen := v.getLsbD 2 }

/-- A write to TIMEOUT while IDLE (R69). -/
def writeTimeout (v : Word) (f : Frx) : Frx := { f with timeout := v }

/-- A write to STATUS (R66): write 1 to clear, on bits 1 and 13. A completion at the same edge runs after it. -/
def clearStatus (v : Word) (f : Frx) : Frx :=
  { f with done := f.done && !v.getLsbD 1, ovr := f.ovr && !v.getLsbD 13 }

/-! The command start steps, each as it runs while IDLE. -/

/-- R155. -/
def startNop (f : Frx) : Frx := completeAtOnce .ok f

/-- R156: NOTACTIVE while POWERED_DOWN, else a frame that is a sample. -/
def startAcquire (f : Frx) : Frx :=
  match f.pwr with
  | .poweredDown => completeAtOnce .notActive f
  | .active => startFrame false (accept .acquire f)

/-- R170: GAIN is written in both power states; a discard frame runs while ACTIVE. -/
def startSetGain (g : GainChannel) (f : Frx) : Frx :=
  match f.pwr with
  | .poweredDown => completeAtOnce .ok { f with gain := g }
  | .active => startFrame true (accept .setGain { f with gain := g })

/-- R94, R96. -/
def startBadGain (f : Frx) : Frx := completeAtOnce .badGain f

/-- R94, R96. -/
def startIllegal (f : Frx) : Frx := completeAtOnce .illegal f

/-- SET_GAIN by its GSEL field: code 3 names no gain and is BADGAIN (R90, R94; DEDUCED, log entry 21). -/
def startSetGainCode (gsel : BitVec 2) (f : Frx) : Frx :=
  match gainOfCode gsel with
  | some g => startSetGain g f
  | none => startBadGain f

/-- R174: nothing on the line while POWERED_DOWN. -/
def startPowerDown (p : Params) (f : Frx) : Frx :=
  match f.pwr with
  | .poweredDown => completeAtOnce .ok f
  | .active => setSck false (enter .pdLow p.tLow (accept .powerDown f))

/-- R178: in either power state. -/
def startPowerUp (p : Params) (f : Frx) : Frx := setSck false (enter .puSettle p.tPu (accept .powerUp f))

/-- R185: while POWERED_DOWN, the power-up half alone. -/
def startResetDev (p : Params) (f : Frx) : Frx :=
  match f.pwr with
  | .active => setSck false (enter .pdLow p.tLow (accept .resetDev f))
  | .poweredDown => setSck false (enter .puSettle p.tPu (accept .resetDev f))

/-- What a legal or illegal verdict does while IDLE (R96 to R98). -/
def startVerdict (p : Params) (v : Verdict) (f : Frx) : Frx :=
  match v with
  | .illegal => startIllegal f
  | .badGain => startBadGain f
  | .nop => startNop f
  | .acquire => startAcquire f
  | .setGain g => startSetGain g f
  | .powerDown => startPowerDown p f
  | .powerUp => startPowerUp p f
  | .resetDev => startResetDev p f

end Sys2Proof.Machine
end

