-- ==== Sys2Proof/Machine/Deserializer.lean ====
section
/-! DEFINITION. ASSEMBLE and DECODE (42_frame_acquisition.md R143, R145). -/

namespace Sys2Proof.Machine

/-- The weight of the bit received i-th within its byte (R143). -/
def bitWeight (order : Order) (i : Nat) : Nat :=
  match order with
  | .msbFirst => 2 ^ (7 - i)
  | .lsbFirst => 2 ^ i

/-- The value of one received bit. -/
def bitValue (order : Order) (s : SerialBits) (j : Fin 3) (i : Fin 8) : Nat :=
  s[8 * j.val + i.val].toNat * bitWeight order i.val

/-- byte[j], the sum over the bits received 8j to 8j+7 (R143). -/
def receivedByte (order : Order) (s : SerialBits) (j : Fin 3) : BitVec 8 :=
  BitVec.ofNat 8 (bitValue order s j 0 + bitValue order s j 1 + bitValue order s j 2 + bitValue order s j 3 +
    bitValue order s j 4 + bitValue order s j 5 + bitValue order s j 6 + bitValue order s j 7)

/-- ASSEMBLE (R143). -/
def assemble (s : SerialBits) (bitord byteord : Order) : Frame :=
  match byteord with
  | .msbFirst => receivedByte bitord s 0 ++ receivedByte bitord s 1 ++ receivedByte bitord s 2
  | .lsbFirst => receivedByte bitord s 2 ++ receivedByte bitord s 1 ++ receivedByte bitord s 0

/-- The signed value of a frame (R145). -/
def sampleValue (frame : Frame) : Int :=
  if frame.getLsbD 23 then (frame.toNat : Int) - 2 ^ 24 else (frame.toNat : Int)

/-- DATA_word: the value modulo 2^32 (R145). -/
def dataWord (frame : Frame) : Word := BitVec.ofInt 32 (sampleValue frame)

/-- RAW_word: the frame widened with zeros (R145). -/
def rawWord (frame : Frame) : Word := frame.zeroExtend 32

end Sys2Proof.Machine
end

