-- ==== Sys2Proof/Machine/Sequencer.lean ====
section
/-! DEFINITION. The sequencer: the micro-operations WAIT_READY, READ_BIT and GAIN_PULSE (41_bit_transport.md), the end of
a frame (42_frame_acquisition.md R152) and the power phases (43_gain_and_power.md). -/

namespace Sys2Proof.Machine

/-- A timed phase (R117): count down while `tmr` > 1, run the end action at `tmr` = 1. No rule applies at 0, which
no run reaches: the phase is stuck (DESIGN CHOICE, log entry 8). -/
def timed (endAction : Frx → Frx) (f : Frx) : Frx :=
  if 1 < f.tmr then { f with tmr := f.tmr - 1 } else if f.tmr = 1 then endAction f else f

/-- WAIT_READY (R114). -/
def waitReady (p : Params) (level : Bool) (f : Frx) : Frx :=
  if level = p.readyLevel then setSck true (enter .bitHigh p.tHigh { f with n := 0 })
  else if f.timeout ≠ 0 ∧ f.timeout.toNat ≤ f.wcnt.toNat + 1 then complete .timeout f
  else { f with wcnt := f.wcnt + 1 }

/-- The data sampler (R120): one capture in each data pulse, `T_SAMPLE` edges after its assertion. The condition is
the rule's `T_HIGH` − `tmr` + 1 = `T_SAMPLE` without the subtraction. -/
def sampleBit (p : Params) (level : Bool) (f : Frx) : Frx :=
  if p.tHigh + 1 = p.tSample + f.tmr then { f with sbits := f.sbits.set f.n level } else f

/-- BIT_HIGH's end action (R118). -/
def bitHighEnd (p : Params) (f : Frx) : Frx := setSck false (enter .bitLow p.tLow f)

/-- BIT_LOW's end action (R118): the next data pulse, or the first gain pulse. -/
def bitLowEnd (p : Params) (f : Frx) : Frx :=
  if f.n.val < 23 then setSck true (enter .bitHigh p.tHigh { f with n := f.n + 1 })
  else setSck true (enter .pulseHigh p.tHigh { f with k := 0 })

/-- The sample registers of a frame that is not a discard frame (R152). -/
def recordSample (f : Frx) : Frx :=
  if f.discard then f
  else
    let frame := assemble f.sbits f.bitord f.byteord
    { f with raw := rawWord frame, data := dataWord frame, dtag := f.devg, valid := true }

/-- `frame_end` (R152): one edge writes the sample, DEVG and the completion. -/
def frameEnd (f : Frx) : Frx := complete .ok (setSck false { recordSample f with devg := some f.gain })

/-- PULSE_HIGH's end action (R119). -/
def pulseHighEnd (p : Params) (f : Frx) : Frx := setSck false (enter .pulseLow p.tLow f)

/-- PULSE_LOW's end action (R119): the next gain pulse, or the frame's end. -/
def pulseLowEnd (p : Params) (f : Frx) : Frx :=
  if f.k.val + 1 < pulses f.gain then setSck true (enter .pulseHigh p.tHigh { f with k := f.k + 1 }) else frameEnd f

/-- PD_LOW's end action (R175). -/
def pdLowEnd (p : Params) (f : Frx) : Frx := setSck true (enter .pdHold p.tPd f)

/-- PD_HOLD's end action (R176): POWERED_DOWN; RESET_DEV goes on to its power-up half. -/
def pdHoldEnd (p : Params) (f : Frx) : Frx :=
  let down := { f with pwr := .poweredDown, devg := some .g128 }
  if f.op = .resetDev then setSck false (enter .puSettle p.tPu down) else complete .ok down

/-- PU_SETTLE's end action (R180): ACTIVE; INIT and every gain but 128 run a discard frame. -/
def puSettleEnd (f : Frx) : Frx :=
  let up := { f with pwr := .active }
  if f.op = .init ∨ f.gain ≠ .g128 then startFrame true up else complete .ok up

/-- The sequencer's arm for the phase before the edge (R54, step 4). -/
def sequencer (p : Params) (level : Bool) (f : Frx) : Frx :=
  match f.seq with
  | .idle => f
  | .pdLow => timed (pdLowEnd p) f
  | .pdHold => timed (pdHoldEnd p) f
  | .puSettle => timed puSettleEnd f
  | .wait => waitReady p level f
  | .bitHigh => timed (bitHighEnd p) (sampleBit p level f)
  | .bitLow => timed (bitLowEnd p) f
  | .pulseHigh => timed (pulseHighEnd p) f
  | .pulseLow => timed (pulseLowEnd p) f

/-- The block at an edge with `rst` = 0 (R54): the synchronizer shifts, the host's access takes effect, and the arm of
the phase BEFORE the edge runs. Of the fields a host access may write in a busy block (OVR and DONE) the arm reads none, and
its completion writes DONE last (R212; DEDUCED, log entry 9). -/
def blockEdge (p : Params) (line : Bool) (host : Frx → Frx) (f : Frx) : Frx :=
  let written := host f
  let stepped := if f.seq = .idle then written else sequencer p (din p line f) written
  { stepped with sync := shiftSync p line f.sync }

end Sys2Proof.Machine
end

