-- ==== Sys2Proof/Machine/Device.lean ====
section
/-! DEFINITION. The device agent, under the contract of 41_bit_transport.md R125 to R131. `draw` is the argument of
this edge's draws. -/

namespace Sys2Proof.Machine

/-- The gain a closed frame of c rising edges programs (R129). -/
def gainAfterFrame (draw c : Nat) : GainChannel :=
  if c = 25 then .g128 else if c = 26 then .g32 else if c = 27 then .g64 else Config.drawGain draw

/-- One cycle of the frame window; as it closes the device takes the frame's gain (R129). -/
def windowTick (draw : Nat) (d : Device) : Device :=
  if d.window = 0 then d
  else if d.window = 1 then
    { d with window := 0, dgain := gainAfterFrame draw d.c, c := 0, lag := [], shown := .unknown }
  else { d with window := d.window - 1 }

/-- One cycle of the delayed line sources. -/
def lagTick (d : Device) : Device := { d with lag := d.lag.map fun entry => (entry.1 - 1, entry.2) }

/-- A source that takes over the line `T_DV` cycles from now (DEDUCED, log entry 14). -/
def showLater (p : Params) (src : LineSource) (d : Device) : Device := { d with lag := d.lag ++ [(p.tDv, src)] }

/-- The line source of the latest entry that is due, `before` where none is. -/
def dueSource (before : LineSource) (lag : List (Nat × LineSource)) : LineSource :=
  lag.foldl (fun src entry => if entry.1 = 0 then entry.2 else src) before

/-- The due sources take over the line. -/
def lagSettle (d : Device) : Device :=
  { d with shown := dueSource d.shown d.lag, lag := d.lag.filter fun entry => entry.1 != 0 }

/-- A rising edge of `sck` while the device is on (R127, R128). With no frame open and no conversion it is stray: the gain
and the line levels that follow are draws (DESIGN CHOICE, log entry 13); until `T_DV` after a frame's first rise the line is a
draw too (DEDUCED, log entry 12). -/
def risingEdge (p : Params) (draw : Nat) (d : Device) : Device :=
  if d.c ≠ 0 then showLater p (sourceAfter (d.c + 1)) { d with c := d.c + 1, stray := d.stray - 1 }
  else if d.avail then
    showLater p (sourceAfter 1)
      { d with avail := false, c := 1, window := p.tFrameMax, shown := .unknown, lag := [], stray := d.stray - 1 }
  else { d with dgain := Config.drawGain draw, stray := 24 }

/-- A conversion may become available while no frame is open (R126, R128; DEDUCED, log entry 15). -/
def offerConversion (draw : Nat) (d : Device) : Device :=
  if !d.avail && d.c == 0 && Config.drawAvail draw then { d with avail := true, w := Config.drawBits draw } else d

/-- The device powers down (R130); no window or delayed level outlives it (DEDUCED, log entry 11). -/
def devicePowersDown (d : Device) : Device :=
  { d with on := false, avail := false, c := 0, dgain := .g128, window := 0, lag := [], shown := .unknown, stray := 0 }

/-- The device powers up (R130), with no frame open and the gain at 128, however it came to be off (DEDUCED, log entry 11). -/
def devicePowersUp (d : Device) : Device :=
  { d with on := true, avail := false, c := 0, dgain := .g128, window := 0, lag := [], shown := .unknown, stray := 0 }

/-- One edge of a device that is on. A window that closes does so before a rise of the same edge (DESIGN CHOICE, log
entry 10), and a power-down of the same edge comes last, so that its gain stands (DESIGN CHOICE, log entry 27). -/
def deviceOn (p : Params) (draw : Nat) (rise : Bool) (d : Device) : Device :=
  let ticked := lagTick (windowTick draw d)
  let clocked := lagSettle (if rise then risingEdge p draw ticked else ticked)
  if p.tDevPd ≤ clocked.h then devicePowersDown clocked else offerConversion draw clocked

/-- The device at an edge at which `sck` goes from `was` to `now`: its state in the cycle that begins. -/
def deviceEdge (p : Params) (draw : Nat) (was now : Bool) (d : Device) : Device :=
  let counted := { d with h := if now then d.h + 1 else 0 }
  let stepped :=
    if d.on then deviceOn p draw (!was && now) counted
    else if was && !now then devicePowersUp counted
    else counted
  { stepped with line := lineLevel p draw stepped }

end Sys2Proof.Machine
end

