-- ==== Sys2Proof/Machine/Edge.lean ====
section
/-! DEFINITION. One rising edge of `clk` for the whole machine: the block, the device and the host's port (00_scope.md R13,
10_state.md R54), with the two refusals the spec asks of a model (R6, R232); and the output ports (R20). -/

namespace Sys2Proof.Machine

/-- `rdata` (R20, R62): the value of a register in the current cycle. -/
def rdata (s : State) (r : Reg) : Word := readReg s.par s.dev.line s.frx r

/-- The port `sck` (R47). -/
def sck (s : State) : Bool := s.frx.sckQ

/-- The port `irq` (R210). -/
def irq (s : State) : Bool := irqLevel s.frx

/-- The state after an edge with `rst` = 0, at which the host's access does `host` to the block and the host then holds
`got` as its last read. The device sees `sck` before and after the edge. -/
def advance (host : Frx → Frx) (got : Word) (s : State) : State :=
  let block := blockEdge s.par s.dev.line host s.frx
  { s with
    frx := block
    dev := deviceEdge s.par s.draws s.frx.sckQ block.sckQ s.dev
    port := s.port.tail
    lastRead := got
    draws := s.draws + 1 }

/-- An edge with `rst` = 0. -/
def clockEdge (host : Frx → Frx) (got : Word) (s : State) : Host.Outcome State Fault Refusal :=
  if paramsLegal s.par then
    if s.resetSeen then .next (advance host got s) else .refused .runBeganWithoutReset
  else .refused .parametersBreakConstraints

/-- A host read of a register at an edge (R62): it changes nothing in the block. -/
def busRead (r : Reg) (s : State) : Host.Outcome State Fault Refusal := clockEdge (fun f => f) (rdata s r) s

/-- A host write at an edge (R63). -/
def busWrite (effect : Frx → Frx) (s : State) : Host.Outcome State Fault Refusal := clockEdge effect s.lastRead s

/-- An edge with no access (R100). -/
def idleEdge (s : State) : Host.Outcome State Fault Refusal := clockEdge (fun f => f) s.lastRead s

/-- The edge before was a reset edge too: the block is as R230 leaves it, and no edge of INIT has run. -/
def resetHeld (s : State) : Bool :=
  s.resetSeen && s.frx.seq == .puSettle && s.frx.op == .init && s.frx.tmr == s.par.tPu

/-- The device at an edge with `rst` = 1, which leaves `sck` = 0 (R230). An `sck` that falls wakes a device that is off (R130,
R179, R231, U24); else a reset's first edge finds the device's state a draw (R125; DEDUCED, log entry 16), with the levels
that a stray rising edge has left undetermined still so (R127). At the further edges of one reset the device keeps its
contract (DEDUCED, log entry 28). -/
def resetDevice (s : State) : Device :=
  if resetHeld s || (s.frx.sckQ && !s.dev.on) then deviceEdge s.par s.draws s.frx.sckQ false s.dev
  else Device.drawn s.par s.draws (if s.resetSeen then s.dev.stray else 0)

/-- The state after an edge with `rst` = 1 (R230): the block takes its reset values, the device sees what `resetDevice` says,
and the host keeps what it last read. -/
def resetState (s : State) : State :=
  { s with
    resetSeen := true
    frx := Frx.reset s.par
    dev := resetDevice s
    port := s.port.tail
    draws := s.draws + 1 }

/-- An edge with `rst` = 1, which may also be a run's first. -/
def resetEdge (s : State) : Host.Outcome State Fault Refusal :=
  if paramsLegal s.par then .next (resetState s) else .refused .parametersBreakConstraints

end Sys2Proof.Machine
end

