-- ==== Sys2Proof/Machine/BusReads.lean ====
section
/-! DEFINITION. The eight host reads (20_memory.md R60, R62, R73): the value goes to the host, the block sees an edge with
no write. -/

namespace Sys2Proof.Machine

/-- RD_CFG (R22, R62). -/
def execRdCfg (s : State) : Host.Outcome State Fault Refusal := busRead .cfg s
/-- RD_CMD: reads 0 (R23, R62). -/
def execRdCmd (s : State) : Host.Outcome State Fault Refusal := busRead .cmd s
/-- RD_STATUS (R24, R62). -/
def execRdStatus (s : State) : Host.Outcome State Fault Refusal := busRead .status s
/-- RD_DATA (R27, R62). -/
def execRdData (s : State) : Host.Outcome State Fault Refusal := busRead .data s
/-- RD_RAW (R28, R62). -/
def execRdRaw (s : State) : Host.Outcome State Fault Refusal := busRead .raw s
/-- RD_TIMEOUT (R29, R62). -/
def execRdTimeout (s : State) : Host.Outcome State Fault Refusal := busRead .timeout s
/-- RD_RSVD6: reads 0 (R30, R62). -/
def execRdRsvd6 (s : State) : Host.Outcome State Fault Refusal := busRead .rsvd6 s
/-- RD_ID: reads 0x46525801 (R31, R62). -/
def execRdId (s : State) : Host.Outcome State Fault Refusal := busRead .id s

end Sys2Proof.Machine
end

