-- ==== Sys2Proof/Machine/BusWrites.lean ====
section
/-! DEFINITION. The eight host writes (20_memory.md R63 to R69). -/

namespace Sys2Proof.Machine

/-- WR_CFG (R65, R68). -/
def execWrCfg (v : Word) (s : State) : Host.Outcome State Fault Refusal := busWrite (writeWhenIdle (writeCfg v)) s
/-- WR_CMD (R64, R65): any word, judged by R90. -/
def execWrCmd (v : Word) (s : State) : Host.Outcome State Fault Refusal :=
  busWrite (writeWhenIdle (startVerdict s.par (verdict v))) s
/-- WR_STATUS (R66): accepted at any time. -/
def execWrStatus (v : Word) (s : State) : Host.Outcome State Fault Refusal := busWrite (clearStatus v) s
/-- WR_DATA: ignored (R67). -/
def execWrData (_v : Word) (s : State) : Host.Outcome State Fault Refusal := busWrite (fun f => f) s
/-- WR_RAW: ignored (R67). -/
def execWrRaw (_v : Word) (s : State) : Host.Outcome State Fault Refusal := busWrite (fun f => f) s
/-- WR_TIMEOUT (R65, R69). -/
def execWrTimeout (v : Word) (s : State) : Host.Outcome State Fault Refusal := busWrite (writeWhenIdle (writeTimeout v)) s
/-- WR_RSVD6: ignored (R30, R67). -/
def execWrRsvd6 (_v : Word) (s : State) : Host.Outcome State Fault Refusal := busWrite (fun f => f) s
/-- WR_ID: ignored (R31, R67). -/
def execWrId (_v : Word) (s : State) : Host.Outcome State Fault Refusal := busWrite (fun f => f) s

end Sys2Proof.Machine
end

