-- ==== Sys2Proof/Machine/Commands.lean ====
section
/-! DEFINITION. The CMD words (30_encoding.md R91, R94): each is the host's write of its word to CMD at one edge, judged
against the phase before the edge (20_memory.md R64, R65). The phases that follow are the sequencer's. -/

namespace Sys2Proof.Machine

/-- NOP (R155). -/
def execNop (s : State) : Host.Outcome State Fault Refusal := busWrite (writeWhenIdle startNop) s
/-- ACQUIRE (R156). -/
def execAcquire (s : State) : Host.Outcome State Fault Refusal := busWrite (writeWhenIdle startAcquire) s
/-- SET_GAIN (R170); GSEL = 3, which is BADGAIN's word, has BADGAIN's effect (R94). -/
def execSetGain (gsel : BitVec 2) (s : State) : Host.Outcome State Fault Refusal :=
  busWrite (writeWhenIdle (startSetGainCode gsel)) s
/-- BADGAIN (R94, R96). -/
def execBadGain (s : State) : Host.Outcome State Fault Refusal := busWrite (writeWhenIdle startBadGain) s
/-- POWER_DOWN (R174). -/
def execPowerDown (s : State) : Host.Outcome State Fault Refusal := busWrite (writeWhenIdle (startPowerDown s.par)) s
/-- POWER_UP (R178). -/
def execPowerUp (s : State) : Host.Outcome State Fault Refusal := busWrite (writeWhenIdle (startPowerUp s.par)) s
/-- RESET_DEV (R185). -/
def execResetDev (s : State) : Host.Outcome State Fault Refusal := busWrite (writeWhenIdle (startResetDev s.par)) s
/-- OP = 6, whatever the other bits (R94). -/
def execIllegalOp6 (_rest : BitVec 29) (s : State) : Host.Outcome State Fault Refusal := busWrite (writeWhenIdle startIllegal) s
/-- OP = 7, whatever the other bits (R94). -/
def execIllegalOp7 (_rest : BitVec 29) (s : State) : Host.Outcome State Fault Refusal := busWrite (writeWhenIdle startIllegal) s

end Sys2Proof.Machine
end

