-- ==== Sys2Proof/Machine/Dispatch.lean ====
section
/-! DEFINITION. One arm per row of spec/opcode_table.json. -/

namespace Sys2Proof.Machine

def exec (i : Instr) (s : State) : Host.Outcome State Fault Refusal :=
  match i with
  | .nop => Sys2Proof.Machine.execNop s
  | .acquire => Sys2Proof.Machine.execAcquire s
  | .setGain gsel => Sys2Proof.Machine.execSetGain gsel s
  | .badGain => Sys2Proof.Machine.execBadGain s
  | .powerDown => Sys2Proof.Machine.execPowerDown s
  | .powerUp => Sys2Proof.Machine.execPowerUp s
  | .resetDev => Sys2Proof.Machine.execResetDev s
  | .illegalOp6 rest => Sys2Proof.Machine.execIllegalOp6 rest s
  | .illegalOp7 rest => Sys2Proof.Machine.execIllegalOp7 rest s
  | .rdCfg => Sys2Proof.Machine.execRdCfg s
  | .rdCmd => Sys2Proof.Machine.execRdCmd s
  | .rdStatus => Sys2Proof.Machine.execRdStatus s
  | .rdData => Sys2Proof.Machine.execRdData s
  | .rdRaw => Sys2Proof.Machine.execRdRaw s
  | .rdTimeout => Sys2Proof.Machine.execRdTimeout s
  | .rdRsvd6 => Sys2Proof.Machine.execRdRsvd6 s
  | .rdId => Sys2Proof.Machine.execRdId s
  | .wrCfg v => Sys2Proof.Machine.execWrCfg v s
  | .wrCmd v => Sys2Proof.Machine.execWrCmd v s
  | .wrStatus v => Sys2Proof.Machine.execWrStatus v s
  | .wrData v => Sys2Proof.Machine.execWrData v s
  | .wrRaw v => Sys2Proof.Machine.execWrRaw v s
  | .wrTimeout v => Sys2Proof.Machine.execWrTimeout v s
  | .wrRsvd6 v => Sys2Proof.Machine.execWrRsvd6 v s
  | .wrId v => Sys2Proof.Machine.execWrId v s

end Sys2Proof.Machine
end

