-- ==== Sys2Proof/Machine/HostProgram.lean ====
section
/-! DEFINITION. The host's side of the port: what the next edge brings, `POLL` as the loop it is, and the assembler of
host programs (30_encoding.md R100 to R103). -/

namespace Sys2Proof.Machine

/-- What the next edge brings; with nothing waiting, an edge with no access (log entry 5). -/
def nextInput (s : State) : EdgeInput := s.port.headD .idle

/-- One read of a `POLL` (R102; DEDUCED, log entry 22): the line is done when the field equals the value, and stays the next line when not. -/
def pollEdge (field : Field) (value : Nat) (s : State) : Host.Outcome State Fault Refusal :=
  match exec (Decode.readOf (fieldReg field)) s with
  | .next t => .next (if fieldValue field t.lastRead = value then t else { t with port := s.port })
  | .fault r => .fault r
  | .refused r => .refused r

/-- The edge the outside world presents. -/
def presentInput (x : EdgeInput) (s : State) : Host.Outcome State Fault Refusal :=
  match x with
  | .rst => resetEdge s
  | .idle => idleEdge s
  | .access word => exec (decode word) s
  | .poll field value => pollEdge field value s

/-- `WR <reg>, <value>` (R100). -/
def writeAccess (reg : Reg) (v : Word) : EdgeInput := .access (.busop (Encode.pattern true reg) v)

/-- `RD <reg>` (R100). -/
def readAccess (reg : Reg) : EdgeInput := .access (.busop (Encode.pattern false reg) 0)

/-- The command word `CMD <mnemonic>` writes (R101). The assembler refuses a SET_GAIN with any other
gain than its three, and `g=` on any other mnemonic. That it refuses SET_GAIN with no `g=` too is the model's (DESIGN CHOICE,
log entry 26). -/
def commandWord (name : CmdName) (g : Option Nat) : Option Word :=
  match name, g with
  | .setGain, some factor => (gainOfFactor factor).map fun gain => 0x00000002 + ((gainCode gain).zeroExtend 32 <<< 4)
  | .setGain, none => none
  | _, some _ => none
  | .nop, none => some 0x00000000
  | .acquire, none => some 0x00000001
  | .powerDown, none => some 0x00000003
  | .powerUp, none => some 0x00000004
  | .resetDev, none => some 0x00000005

/-- `WAITDONE` (R103). -/
def waitDoneLines : List EdgeInput := [.poll .busy 0, readAccess .status]

/-- The mask of `W1C` (R103): bit 1 for DONE, bit 13 for OVR. -/
def w1cMask (done ovr : Bool) : Word := (if done then 0x00000002 else 0) ||| (if ovr then 0x00002000 else 0)

/-- One line of a host program as edge inputs; `none` where the assembler refuses it. -/
def assembleLine : HostLine → Option (List EdgeInput)
  | .idle => some [.idle]
  | .wr reg v => some [writeAccess reg v]
  | .rd reg => some [readAccess reg]
  | .cmd name g => (commandWord name g).map fun word => [.access (.cmd32 word)]
  | .poll field v => some [.poll field v]
  | .waitDone => some waitDoneLines
  | .cmdw name g => (commandWord name g).map fun word => .access (.cmd32 word) :: waitDoneLines
  | .w1c done ovr => some [writeAccess .status (w1cMask done ovr)]

/-- A host program (R100), line by line. -/
def assembleProgram (lines : List HostLine) : Option (List EdgeInput) :=
  (lines.mapM assembleLine).map List.flatten

/-- A program's run has ended (92_eei_decisions.md D39): no access is left, and the block is IDLE. -/
def runEnded (s : State) : Bool := s.port.isEmpty && !busy s.frx

/-- The table word as the input of the next edge; the port keeps what it held for the edges after. -/
def fetchWordPort (nbits w : Nat) (port : List EdgeInput) : List EdgeInput :=
  match Decode.hostWord nbits w with
  | .ok word => .access word :: port
  | .error _ => port

end Sys2Proof.Machine
end

