-- ==== Sys2Proof/Machine/Step.lean ====
section
/-! DEFINITION. One step: one rising edge of `clk` with what the outside world presents at it. -/

namespace Sys2Proof.Machine

/-- One rising edge of `clk` (R1, R54). -/
def step (s : State) : Host.Outcome State Fault Refusal := presentInput (nextInput s) s

/-- s with a table word as its next edge's access (log entry 5). -/
def State.withFetchWord (s : State) (nbits w : Nat) : State := { s with port := fetchWordPort nbits w s.port }

end Sys2Proof.Machine
end

