-- ==== Sys2Proof/Safety.lean ====
section
/-! DEFINITION. What counts as a safe run: the states the spec gives a meaning to, the invariant every edge keeps, the
form in which a statement says what an access does, and runs of many edges. -/

namespace Sys2Proof.Safety

open Sys2Proof.Machine

/-- The states a run the spec admits can be in: legal parameters (R6) and a reset edge behind it (R232). -/
abbrev Runnable (s : State) : Prop := paramsLegal s.par = true ∧ s.resetSeen = true

/-- The synchronizer after the edge (R111): L(e) in stage 0, S stages kept. -/
def shiftedSync (s : State) : List Bool := (s.dev.line :: s.frx.sync).take s.par.syncStages

/-- `exec i s` answers the next state with `block` as FRX's state and `read` as the host's last read, the device having
seen the clock line before and after the edge, one edge input consumed, and nothing else changed. -/
def Answers (i : Instr) (s : State) (block : Frx) (read : Word) : Prop :=
  exec i s = .next
    { s with
      frx := block
      dev := deviceEdge s.par s.draws s.frx.sckQ block.sckQ s.dev
      port := s.port.tail
      lastRead := read
      draws := s.draws + 1 }

/-- Is the phase one of a frame (R141)? -/
def framePhase : Phase → Bool
  | .wait | .bitHigh | .bitLow | .pulseHigh | .pulseLow => true
  | .idle | .pdLow | .pdHold | .puSettle => false

/-- Is the phase one of the gain pulses? -/
def pulsePhase : Phase → Bool
  | .pulseHigh | .pulseLow => true
  | .wait | .bitHigh | .bitLow | .idle | .pdLow | .pdHold | .puSettle => false

/-- How long a timed phase lasts (R41, R117); 0 for the phases that use no timer. -/
def phaseLength (p : Params) : Phase → Nat
  | .idle | .wait => 0
  | .pdLow | .bitLow | .pulseLow => p.tLow
  | .bitHigh | .pulseHigh => p.tHigh
  | .pdHold => p.tPd
  | .puSettle => p.tPu

/-- The clock level of a phase (R118, R119, R123). -/
def clockLevel (pwr : Power) : Phase → Bool
  | .idle => pwr == .poweredDown
  | .pdHold | .bitHigh | .pulseHigh => true
  | .pdLow | .puSettle | .wait | .bitLow | .pulseLow => false

/-- The commands that run in a phase (R42). -/
def opsIn : Phase → List Op
  | .idle => [.none]
  | .pdLow | .pdHold => [.powerDown, .resetDev]
  | .puSettle => [.powerUp, .resetDev, .init]
  | .wait | .bitHigh | .bitLow | .pulseHigh | .pulseLow => [.acquire, .setGain, .powerUp, .resetDev, .init]

/-- What the rules say of the block in every state a run reaches. -/
structure BlockInv (p : Params) (f : Frx) : Prop where
  /-- the chain has S stages (R48) -/
  syncLength : f.sync.length = p.syncStages
  /-- `tmr` is within the phase and never 0 in a timed one (R117) -/
  timer : phaseLength p f.seq ≠ 0 → 1 ≤ f.tmr ∧ f.tmr ≤ phaseLength p f.seq
  /-- R123 -/
  clock : f.sckQ = clockLevel f.pwr f.seq
  op : f.op ∈ opsIn f.seq
  /-- only ACQUIRE's frame is no discard frame (R140) -/
  discard : framePhase f.seq = true → (f.discard = false ↔ f.op = .acquire)
  /-- R181, and no frame runs while POWERED_DOWN -/
  power : framePhase f.seq = true ∨ f.seq = .pdLow ∨ f.seq = .pdHold → f.pwr = .active
  /-- DONE and ERR while a command runs (R97) -/
  flags : f.seq ≠ .idle → f.done = false ∧ f.err = .ok
  /-- the bounded wait (R116) -/
  bounded : f.seq = .wait → f.timeout ≠ 0 → f.wcnt.toNat < f.timeout.toNat
  /-- the gain pulse is one of P(GAIN), after data pulse 23 -/
  pulse : pulsePhase f.seq = true → f.k.val < pulses f.gain ∧ f.n = 23
  /-- DATA and RAW are of one frame (R27, R28) -/
  words : ∃ frame : Frame, f.raw = rawWord frame ∧ f.data = dataWord frame
  /-- no sample yet (R249) -/
  noSample : f.valid = false → f.raw = 0 ∧ f.data = 0 ∧ f.dtag = none

/-- What the contract says of the device's own bookkeeping in every state a run reaches. -/
structure DeviceInv (p : Params) (d : Device) : Prop where
  /-- a frame is open exactly while its window is (R127, R129) -/
  frameOpen : d.c = 0 ↔ d.window = 0
  window : d.window ≤ p.tFrameMax
  stray : d.stray ≤ 24

/-- The invariant of the machine. -/
structure Inv (s : State) : Prop where
  runnable : Runnable s
  block : BlockInv s.par s.frx
  device : DeviceInv s.par s.dev

/-- So many steps, stopping at the first refusal. -/
def runEdges : Nat → State → Host.Outcome State Fault Refusal
  | 0, s => .next s
  | k + 1, s =>
    match step s with
    | .next t => runEdges k t
    | .fault r => .fault r
    | .refused r => .refused r

/-- No edge with `rst` = 1 among the next k inputs of the port. -/
def noRstFor (k : Nat) (s : State) : Prop := ∀ x ∈ s.port.take k, x ≠ EdgeInput.rst

/-- A step is safe from a state when it answers a next state. -/
def SafeStep (s : State) : Prop := ∃ t, step s = .next t

end Sys2Proof.Safety
end

