-- ==== Sys2Proof/Certificates/Slice0/Obligations.lean ====
section
/-! DEFINITION. The statements about the model. Each docstring names the rule of the spec it formalises. -/

open Sys2Proof Sys2Proof.Machine Sys2Proof.Safety

/-! ## Steps and encodings -/

/-- R54, R63, R99, R100: an edge runs what the outside world presents at it. (That it stands at the head of a list is
the model's own, log entry 5.) -/
def Obligations.StepRunsTheNextInput : Prop :=
  ∀ s : State,
    (∀ w rest, s.port = .access w :: rest → step s = exec (decode w) s) ∧
    (∀ rest, s.port = .idle :: rest → step s = idleEdge s) ∧
    (s.port = [] → step s = idleEdge s) ∧
    (∀ rest, s.port = .rst :: rest → step s = resetEdge s)

/-- R100: an edge with no access leaves an idle block as it was, but for the synchronizer's shift (R111). -/
def Obligations.IdleEdgeOnlyShiftsTheSynchronizer : Prop :=
  ∀ s : State, Runnable s → s.frx.seq = .idle →
    idleEdge s = .next
      { s with
        frx := { s.frx with sync := shiftedSync s }
        dev := deviceEdge s.par s.draws s.frx.sckQ s.frx.sckQ s.dev
        port := s.port.tail
        draws := s.draws + 1 }

/-- R91, R92, R99: no bit of an encoding is dropped. -/
def Obligations.DecodeOfEncodeIsTheInstruction : Prop :=
  ∀ i : Instr, i.wellFormed = true → decode (encode i) = i

/-- R99: decoding loses nothing of what an access puts on the port; the write data of a read is none of it. -/
def Obligations.EncodeOfDecodeDrivesTheSamePort : Prop :=
  ∀ w : HostWord,
    (portSignals (encode (decode w))).wrEn = (portSignals w).wrEn ∧
    (portSignals (encode (decode w))).addr = (portSignals w).addr ∧
    ((portSignals w).wrEn = true → (portSignals (encode (decode w))).wdata = (portSignals w).wdata)

/-- R99, R90: a command word does what a write of it to CMD does, whichever row of the table it fits, or none. -/
def Obligations.CommandWordsActAsTheirCmdWrite : Prop :=
  ∀ (w : Word) (s : State), exec (decode (.cmd32 w)) s = exec (.wrCmd w) s

/-- R90, R91, R93, R94: the verdict on each of the 2^32 words. -/
def Obligations.VerdictOfEveryCommandWord : Prop :=
  ∀ v : Word,
    (verdict v = .illegal ↔
      6 ≤ v.toNat % 8 ∨ v &&& 0xFFFFFFC8 ≠ 0 ∨ (v.toNat % 8 ≠ 2 ∧ v &&& 0x00000030 ≠ 0)) ∧
    (verdict v = .badGain ↔ v = 0x00000032) ∧ (verdict v = .nop ↔ v = 0x00000000) ∧
    (verdict v = .acquire ↔ v = 0x00000001) ∧ (verdict v = .setGain .g128 ↔ v = 0x00000002) ∧
    (verdict v = .setGain .g64 ↔ v = 0x00000012) ∧ (verdict v = .setGain .g32 ↔ v = 0x00000022) ∧
    (verdict v = .powerDown ↔ v = 0x00000003) ∧ (verdict v = .powerUp ↔ v = 0x00000004) ∧
    (verdict v = .resetDev ↔ v = 0x00000005)

/-- R91, R94, R99: words written out from the spec's encodings, one or more of each family. -/
def Obligations.TableWordsDecodeToTheirRows : Prop :=
  decodeTableWord 32 0x00000000 = some .nop ∧ decodeTableWord 32 0x00000001 = some .acquire ∧
  decodeTableWord 32 0x00000012 = some (.setGain 1) ∧ decodeTableWord 32 0x00000032 = some .badGain ∧
  decodeTableWord 32 0x00000005 = some .resetDev ∧ decodeTableWord 32 0x00000036 = some (.illegalOp6 6) ∧
  decodeTableWord 32 0x00000072 = some (.wrCmd 0x72) ∧ decodeTableWord 8 0x2 = some .rdStatus ∧
  decodeTableWord 8 0x9 = some (.wrCmd 0) ∧ decodeTableWord 40 0x200A = some (.wrStatus 0x20) ∧
  decodeTableWord 8 0x1F = none

/-! ## Reset, and the runs a model refuses -/

/-- R230: the table of reset values, what follows from it for the host, and that nothing else happens. -/
def Obligations.ResetEdgeGivesEveryResetValue : Prop :=
  ∀ s : State, paramsLegal s.par = true →
    ∃ t, resetEdge s = .next t ∧
      t.frx =
        { bitord := .msbFirst, byteord := .msbFirst, irqen := false, timeout := s.par.timeoutReset,
          done := false, err := .ok, ovr := false, pwr := .active, gain := .g128, devg := none, dtag := none,
          valid := false, data := 0, raw := 0, seq := .puSettle, tmr := s.par.tPu, op := .init, discard := true,
          wcnt := 0, n := 0, k := 0, sbits := Vector.replicate 24 false, sckQ := false,
          sync := List.replicate s.par.syncStages (!s.par.readyLevel) } ∧
      t.par = s.par ∧ rdata t .id = 0x46525801 ∧
      (rdata t .status).getLsbD 0 = true ∧ irq t = false ∧ (rdata t .status).getLsbD 15 = false ∧
      (1 ≤ s.par.syncStages → (rdata t .status).getLsbD 14 = !s.par.readyLevel)

/-- The invariant holds right after reset (under the parameters the model's reset state carries, log entry 1). -/
def Obligations.ResetStateHasTheInvariant : Prop := Inv State.reset

/-- R6, U3: a parameter set that breaks K1 to K6 is refused at every edge. That one outside the ranges of R6's table is refused
with them is the model's (log entry 3). No other is refused. -/
def Obligations.IllegalParametersAreRefused : Prop :=
  ∀ s : State,
    (paramsLegal s.par = true ↔
      (1 ≤ s.par.tHigh ∧ 1 ≤ s.par.tLow ∧ 1 ≤ s.par.tPd ∧ 1 ≤ s.par.tPu ∧ 1 ≤ s.par.tDevPd) ∧
      s.par.syncStages + 1 + s.par.tDv ≤ s.par.tSample ∧ s.par.tSample ≤ s.par.tHigh ∧
      s.par.tHigh < s.par.tDevPd ∧ s.par.tDevPd ≤ s.par.tPd ∧
      27 * (s.par.tHigh + s.par.tLow) ≤ s.par.tFrameMax ∧
      s.par.syncStages + s.par.tDv ≤ s.par.tHigh + s.par.tLow + 1 ∧ s.par.syncStages ≤ s.par.tPu) ∧
    (step s = .refused .parametersBreakConstraints ↔ paramsLegal s.par = false)

/-- R232: a run that does not begin with a reset edge is refused, and a reset edge begins one. -/
def Obligations.RunsBeginWithAResetEdge : Prop :=
  ∀ s : State, paramsLegal s.par = true → s.resetSeen = false →
    (nextInput s ≠ .rst → step s = .refused .runBeganWithoutReset) ∧
    (nextInput s = .rst → ∃ t, step s = .next t ∧ t.resetSeen = true)

/-! ## Host reads -/

/-- R22, R23, R27 to R31, R62: what each register but STATUS reads as, in any state. -/
def Obligations.ReadsReturnTheRegisters : Prop :=
  ∀ s : State, Runnable s →
    (∃ t, exec .rdCfg s = .next t ∧ t.lastRead =
      (if s.frx.irqen then 4#32 else 0) + (if s.frx.byteord = .lsbFirst then 2#32 else 0) +
        (if s.frx.bitord = .lsbFirst then 1#32 else 0)) ∧
    (∃ t, exec .rdCmd s = .next t ∧ t.lastRead = 0) ∧
    (∃ t, exec .rdData s = .next t ∧ t.lastRead = s.frx.data) ∧
    (∃ t, exec .rdRaw s = .next t ∧ t.lastRead = s.frx.raw) ∧
    (∃ t, exec .rdTimeout s = .next t ∧ t.lastRead = s.frx.timeout) ∧
    (∃ t, exec .rdRsvd6 s = .next t ∧ t.lastRead = 0) ∧
    (∃ t, exec .rdId s = .next t ∧ t.lastRead = 0x46525801)

/-- R24, R25, R53, R62, R112, R200: STATUS, field by field, from the state before the edge. -/
def Obligations.StatusReadShowsEveryField : Prop :=
  ∀ s : State, Runnable s →
    ∃ t, exec .rdStatus s = .next t ∧
      (t.lastRead.getLsbD 0 = true ↔ s.frx.seq ≠ .idle) ∧
      t.lastRead.getLsbD 1 = s.frx.done ∧
      t.lastRead.extractLsb' 2 3 =
        (match s.frx.err with
          | .ok => 0
          | .timeout => 1
          | .illegal => 2
          | .badGain => 3
          | .notActive => 4) ∧
      (t.lastRead.getLsbD 5 = true ↔ s.frx.pwr = .poweredDown) ∧
      t.lastRead.extractLsb' 6 2 =
        (match s.frx.gain with
          | .g128 => 0
          | .g64 => 1
          | .g32 => 2) ∧
      t.lastRead.extractLsb' 8 2 =
        (match s.frx.devg with
          | some .g128 => 0
          | some .g64 => 1
          | some .g32 => 2
          | none => 3) ∧
      t.lastRead.extractLsb' 10 2 =
        (match s.frx.dtag with
          | some .g128 => 0
          | some .g64 => 1
          | some .g32 => 2
          | none => 3) ∧
      t.lastRead.getLsbD 12 = s.frx.valid ∧ t.lastRead.getLsbD 13 = s.frx.ovr ∧
      t.lastRead.getLsbD 14 = din s.par s.dev.line s.frx ∧
      t.lastRead.getLsbD 15 = s.frx.sckQ ∧ t.lastRead.extractLsb' 16 16 = 0

/-- R62 "A read changes no state", R73: to the block and the device a read is an edge with no access. R24, R65, R66: at such an
edge a busy block keeps OVR, and keeps DONE unless a completion sets it. -/
def Obligations.ReadsChangeNothing : Prop :=
  ∀ (s : State) (r : Reg), Runnable s →
    ∃ t u, exec (Decode.readOf r) s = .next t ∧ idleEdge s = .next u ∧
      t = { u with lastRead := rdata s r } ∧
      (s.frx.seq = .idle → t.frx = { s.frx with sync := shiftedSync s }) ∧
      (s.frx.seq ≠ .idle →
        t.frx.ovr = s.frx.ovr ∧ t.frx.done = if t.frx.seq = .idle then true else s.frx.done)

/-! ## Host writes -/

/-- R68: CFG takes v[2:0], and DATA, RAW and all else are as they were. -/
def Obligations.WrCfgTakesItsThreeBits : Prop :=
  ∀ (s : State) (v : Word), Runnable s → s.frx.seq = .idle →
    Answers (.wrCfg v) s
      { s.frx with
        bitord := if v.getLsbD 0 then .lsbFirst else .msbFirst
        byteord := if v.getLsbD 1 then .lsbFirst else .msbFirst
        irqen := v.getLsbD 2
        sync := shiftedSync s } s.lastRead

/-- R69: TIMEOUT takes the value. -/
def Obligations.WrTimeoutTakesTheValue : Prop :=
  ∀ (s : State) (v : Word), Runnable s → s.frx.seq = .idle →
    Answers (.wrTimeout v) s { s.frx with timeout := v, sync := shiftedSync s } s.lastRead

/-- R66: a STATUS write, whatever the block is doing, beside the same edge with no access. DONE is cleared by v[1] unless
a completion at the edge sets it, OVR by v[13]; no other bit of v matters. -/
def Obligations.WrStatusClearsWhatItNames : Prop :=
  ∀ (s : State) (v : Word), Runnable s →
    ∃ t u, exec (.wrStatus v) s = .next t ∧ idleEdge s = .next u ∧
      ∃ done ovr, t = { u with frx := { u.frx with done := done, ovr := ovr } } ∧
        (done =
          if s.frx.seq ≠ .idle ∧ u.frx.seq = .idle then true else if v.getLsbD 1 then false else s.frx.done) ∧
        (ovr = if v.getLsbD 13 then false else s.frx.ovr)

/-- R67: writes to DATA, RAW, ID and index 6 have no effect at all, even while BUSY. -/
def Obligations.WritesToReadOnlyRegistersDoNothing : Prop :=
  ∀ (s : State) (v : Word) (i : Instr), Runnable s → i ∈ [Instr.wrData v, .wrRaw v, .wrRsvd6 v, .wrId v] →
    ∃ t, exec i s = .next t ∧ idleEdge s = .next t

/-- R65, R98: while BUSY, every write to CMD, CFG or TIMEOUT sets OVR and is otherwise an edge with no access. -/
def Obligations.BusyWritesAreDropped : Prop :=
  ∀ (s : State) (i : Instr), Runnable s → s.frx.seq ≠ .idle →
    (portSignals (encode i)).wrEn = true → (portSignals (encode i)).addr ∈ [(0 : BitVec 3), 1, 5] →
    ∃ t u, exec i s = .next t ∧ idleEdge s = .next u ∧ t = { u with frx := { u.frx with ovr := true } }

/-- R64, R90, R96, R97: while IDLE, a CMD write of each of the 2^32 words answers the outcome of that word, written out. -/
def Obligations.WrCmdTakesTheOutcomeOfItsWord : Prop :=
  ∀ (s : State) (v : Word), Runnable s → s.frx.seq = .idle →
    (6 ≤ v.toNat % 8 ∨ v &&& 0xFFFFFFC8 ≠ 0 ∨ (v.toNat % 8 ≠ 2 ∧ v &&& 0x00000030 ≠ 0) →
      Answers (.wrCmd v) s
        { s.frx with done := true, err := .illegal, op := .none, sync := shiftedSync s } s.lastRead) ∧
    (v = 0x00000032 →
      Answers (.wrCmd v) s
        { s.frx with done := true, err := .badGain, op := .none, sync := shiftedSync s } s.lastRead) ∧
    (v = 0x00000000 →
      Answers (.wrCmd v) s { s.frx with done := true, err := .ok, op := .none, sync := shiftedSync s } s.lastRead) ∧
    (v = 0x00000001 → s.frx.pwr = .active →
      Answers (.wrCmd v) s
        { s.frx with
          op := .acquire, done := false, err := .ok, seq := .wait, wcnt := 0, discard := false
          sync := shiftedSync s } s.lastRead) ∧
    (v = 0x00000001 → s.frx.pwr = .poweredDown →
      Answers (.wrCmd v) s
        { s.frx with done := true, err := .notActive, op := .none, sync := shiftedSync s } s.lastRead) ∧
    (∀ g, (v, g) ∈ [((0x00000002 : Word), GainChannel.g128), (0x00000012, .g64), (0x00000022, .g32)] →
      (s.frx.pwr = .active →
        Answers (.wrCmd v) s
          { s.frx with
            gain := g, op := .setGain, done := false, err := .ok, seq := .wait, wcnt := 0, discard := true
            sync := shiftedSync s } s.lastRead) ∧
      (s.frx.pwr = .poweredDown →
        Answers (.wrCmd v) s
          { s.frx with gain := g, done := true, err := .ok, op := .none, sync := shiftedSync s } s.lastRead)) ∧
    (v = 0x00000003 → s.frx.pwr = .active →
      Answers (.wrCmd v) s
        { s.frx with
          op := .powerDown, done := false, err := .ok, seq := .pdLow, tmr := s.par.tLow, sckQ := false
          sync := shiftedSync s } s.lastRead) ∧
    (v = 0x00000003 → s.frx.pwr = .poweredDown →
      Answers (.wrCmd v) s { s.frx with done := true, err := .ok, op := .none, sync := shiftedSync s } s.lastRead) ∧
    (v = 0x00000004 →
      Answers (.wrCmd v) s
        { s.frx with
          op := .powerUp, done := false, err := .ok, seq := .puSettle, tmr := s.par.tPu, sckQ := false
          sync := shiftedSync s } s.lastRead) ∧
    (v = 0x00000005 → s.frx.pwr = .active →
      Answers (.wrCmd v) s
        { s.frx with
          op := .resetDev, done := false, err := .ok, seq := .pdLow, tmr := s.par.tLow, sckQ := false
          sync := shiftedSync s } s.lastRead) ∧
    (v = 0x00000005 → s.frx.pwr = .poweredDown →
      Answers (.wrCmd v) s
        { s.frx with
          op := .resetDev, done := false, err := .ok, seq := .puSettle, tmr := s.par.tPu, sckQ := false
          sync := shiftedSync s } s.lastRead)

/-! ## Commands, at their accepting edge -/

/-- R155: NOP, in either power state, writes DONE and ERR; a NOP while BUSY is dropped and sets OVR. -/
def Obligations.NopCompletesAtOnce : Prop :=
  decode (.cmd32 0x00000000) = .nop ∧
  ∀ s : State, Runnable s →
    (s.frx.seq = .idle →
      Answers .nop s { s.frx with done := true, err := .ok, op := .none, sync := shiftedSync s } s.lastRead) ∧
    (s.frx.seq ≠ .idle →
      ∃ t u, exec .nop s = .next t ∧ idleEdge s = .next u ∧ t = { u with frx := { u.frx with ovr := true } })

/-- R156, R97, R140: ACQUIRE while ACTIVE starts a frame that is a sample; while POWERED_DOWN it is NOTACTIVE, at once. -/
def Obligations.AcquireStartsASampleFrame : Prop :=
  ∀ s : State, Runnable s → s.frx.seq = .idle →
    (s.frx.pwr = .active →
      Answers .acquire s
        { s.frx with
          op := .acquire, done := false, err := .ok, seq := .wait, wcnt := 0, discard := false
          sync := shiftedSync s } s.lastRead) ∧
    (s.frx.pwr = .poweredDown →
      Answers .acquire s { s.frx with done := true, err := .notActive, op := .none, sync := shiftedSync s } s.lastRead)

/-- R170: SET_GAIN writes GAIN in both power states, and runs a discard frame while ACTIVE. -/
def Obligations.SetGainWritesGainAndDiscardsAFrame : Prop :=
  ∀ (s : State) (gsel : BitVec 2) (g : GainChannel), Runnable s → s.frx.seq = .idle →
    (gsel, g) ∈ [((0 : BitVec 2), GainChannel.g128), (1, .g64), (2, .g32)] →
    (s.frx.pwr = .active →
      Answers (.setGain gsel) s
        { s.frx with
          gain := g, op := .setGain, done := false, err := .ok, seq := .wait, wcnt := 0, discard := true
          sync := shiftedSync s } s.lastRead) ∧
    (s.frx.pwr = .poweredDown →
      Answers (.setGain gsel) s
        { s.frx with gain := g, done := true, err := .ok, op := .none, sync := shiftedSync s } s.lastRead)

/-- R94, R96: BADGAIN completes at once and leaves GAIN as it was; so does SET_GAIN's ill-formed spelling of it (log entry 21). -/
def Obligations.BadGainCompletesAtOnce : Prop :=
  ∀ (s : State) (i : Instr), Runnable s → s.frx.seq = .idle → i ∈ [Instr.badGain, .setGain 3] →
    Answers i s { s.frx with done := true, err := .badGain, op := .none, sync := shiftedSync s } s.lastRead

/-- R94, R96: an illegal word completes at once with ERR = ILLEGAL, whatever its other bits. -/
def Obligations.IllegalWordsCompleteAtOnce : Prop :=
  ∀ (s : State) (i : Instr), Runnable s → s.frx.seq = .idle →
    ((∃ rest, i = .illegalOp6 rest) ∨ (∃ rest, i = .illegalOp7 rest) ∨ ∃ v, verdict v = .illegal ∧ i = .wrCmd v) →
    Answers i s { s.frx with done := true, err := .illegal, op := .none, sync := shiftedSync s } s.lastRead

/-- R174: POWER_DOWN while ACTIVE deasserts the clock for `T_LOW`; while POWERED_DOWN it does nothing on the line. -/
def Obligations.PowerDownStartsItsLowPhase : Prop :=
  ∀ s : State, Runnable s → s.frx.seq = .idle →
    (s.frx.pwr = .active →
      Answers .powerDown s
        { s.frx with
          op := .powerDown, done := false, err := .ok, seq := .pdLow, tmr := s.par.tLow, sckQ := false
          sync := shiftedSync s } s.lastRead) ∧
    (s.frx.pwr = .poweredDown →
      Answers .powerDown s { s.frx with done := true, err := .ok, op := .none, sync := shiftedSync s } s.lastRead)

/-- R178: POWER_UP deasserts the clock and settles, in either power state. -/
def Obligations.PowerUpStartsItsSettle : Prop :=
  ∀ s : State, Runnable s → s.frx.seq = .idle →
    Answers .powerUp s
      { s.frx with
        op := .powerUp, done := false, err := .ok, seq := .puSettle, tmr := s.par.tPu, sckQ := false
        sync := shiftedSync s } s.lastRead

/-- R185: RESET_DEV starts with its power-down half, or its power-up half alone when the device is already down. -/
def Obligations.ResetDevStartsTheHalfItNeeds : Prop :=
  ∀ s : State, Runnable s → s.frx.seq = .idle →
    (s.frx.pwr = .active →
      Answers .resetDev s
        { s.frx with
          op := .resetDev, done := false, err := .ok, seq := .pdLow, tmr := s.par.tLow, sckQ := false
          sync := shiftedSync s } s.lastRead) ∧
    (s.frx.pwr = .poweredDown →
      Answers .resetDev s
        { s.frx with
          op := .resetDev, done := false, err := .ok, seq := .puSettle, tmr := s.par.tPu, sckQ := false
          sync := shiftedSync s } s.lastRead)

/-! ## The sequencer, at any edge of a busy block, whatever the host does at it

DONE and OVR are the two fields a host access may write meanwhile (R65, R66); each statement leaves them as they come out,
unless a completion sets DONE. -/

/-- R114: the three outcomes of a ready test. -/
def Obligations.ReadyTestHasThreeOutcomes : Prop :=
  ∀ (i : Instr) (s : State), Runnable s → s.frx.seq = .wait →
    ∃ t, exec i s = .next t ∧
      (din s.par s.dev.line s.frx = s.par.readyLevel →
        t.frx =
          { s.frx with
            n := 0, seq := .bitHigh, tmr := s.par.tHigh, sckQ := true
            done := t.frx.done, ovr := t.frx.ovr, sync := shiftedSync s }) ∧
      (din s.par s.dev.line s.frx ≠ s.par.readyLevel → s.frx.timeout ≠ 0 →
          s.frx.timeout.toNat ≤ s.frx.wcnt.toNat + 1 →
        t.frx =
          { s.frx with
            seq := .idle, op := .none, done := true, err := .timeout
            ovr := t.frx.ovr, sync := shiftedSync s }) ∧
      (din s.par s.dev.line s.frx ≠ s.par.readyLevel →
          (s.frx.timeout = 0 ∨ s.frx.wcnt.toNat + 1 < s.frx.timeout.toNat) →
        t.frx =
          { s.frx with
            wcnt := s.frx.wcnt + 1, done := t.frx.done, ovr := t.frx.ovr, sync := shiftedSync s })

/-- R117, R120: inside a timed phase only the timer runs, and the sampler of a data pulse captures `din` at its one edge. -/
def Obligations.TimedPhasesCountDownAndSample : Prop :=
  ∀ (i : Instr) (s : State), Runnable s → s.frx.seq ∉ [Phase.idle, .wait] → 1 < s.frx.tmr →
    ∃ t, exec i s = .next t ∧
      t.frx =
        { s.frx with
          tmr := s.frx.tmr - 1
          sbits :=
            if s.frx.seq = .bitHigh ∧ (s.par.tHigh : Int) - (s.frx.tmr : Int) + (1 : Int) = (s.par.tSample : Int) then
              s.frx.sbits.set s.frx.n (din s.par s.dev.line s.frx)
            else s.frx.sbits
          done := t.frx.done, ovr := t.frx.ovr, sync := shiftedSync s }

/-- R118, R120: the end actions of a data pulse's two phases. -/
def Obligations.DataPulsesFollowEachOther : Prop :=
  ∀ (i : Instr) (s : State), Runnable s → s.frx.tmr = 1 →
    ∃ t, exec i s = .next t ∧
      (s.frx.seq = .bitHigh →
        t.frx =
          { s.frx with
            seq := .bitLow, tmr := s.par.tLow, sckQ := false
            sbits :=
              if s.par.tHigh = s.par.tSample then s.frx.sbits.set s.frx.n (din s.par s.dev.line s.frx) else s.frx.sbits
            done := t.frx.done, ovr := t.frx.ovr, sync := shiftedSync s }) ∧
      (s.frx.seq = .bitLow → s.frx.n.val < 23 →
        t.frx.n.val = s.frx.n.val + 1 ∧
        t.frx =
          { s.frx with
            n := t.frx.n, seq := .bitHigh, tmr := s.par.tHigh, sckQ := true
            done := t.frx.done, ovr := t.frx.ovr, sync := shiftedSync s }) ∧
      (s.frx.seq = .bitLow → s.frx.n.val = 23 →
        t.frx =
          { s.frx with
            k := 0, seq := .pulseHigh, tmr := s.par.tHigh, sckQ := true
            done := t.frx.done, ovr := t.frx.ovr, sync := shiftedSync s })

/-- R119, R148: the end actions of a gain pulse's two phases, up to the last of P(GAIN) pulses. -/
def Obligations.GainPulsesCountToP : Prop :=
  ∀ (i : Instr) (s : State), Runnable s → s.frx.tmr = 1 →
    ∃ t, exec i s = .next t ∧
      (s.frx.seq = .pulseHigh →
        t.frx =
          { s.frx with
            seq := .pulseLow, tmr := s.par.tLow, sckQ := false
            done := t.frx.done, ovr := t.frx.ovr, sync := shiftedSync s }) ∧
      (s.frx.seq = .pulseLow → s.frx.k.val + 1 < pulses s.frx.gain →
        t.frx.k.val = s.frx.k.val + 1 ∧
        t.frx =
          { s.frx with
            k := t.frx.k, seq := .pulseHigh, tmr := s.par.tHigh, sckQ := true
            done := t.frx.done, ovr := t.frx.ovr, sync := shiftedSync s })

/-- R152: the end of a frame. A discard frame writes only DEVG and the completion fields. -/
def Obligations.FrameEndRecordsTheFrame : Prop :=
  ∀ (i : Instr) (s : State), Runnable s → s.frx.seq = .pulseLow → s.frx.tmr = 1 →
    pulses s.frx.gain ≤ s.frx.k.val + 1 →
    ∃ t, exec i s = .next t ∧
      (s.frx.discard = false →
        t.frx =
          { s.frx with
            raw := (assemble s.frx.sbits s.frx.bitord s.frx.byteord).zeroExtend 32
            data := (assemble s.frx.sbits s.frx.bitord s.frx.byteord).signExtend 32
            dtag := s.frx.devg, valid := true, devg := some s.frx.gain, sckQ := false
            seq := .idle, op := .none, done := true, err := .ok
            ovr := t.frx.ovr, sync := shiftedSync s }) ∧
      (s.frx.discard = true →
        t.frx =
          { s.frx with
            devg := some s.frx.gain, sckQ := false
            seq := .idle, op := .none, done := true, err := .ok
            ovr := t.frx.ovr, sync := shiftedSync s })

/-- R175, R176: the power-down phases; RESET_DEV goes on to PU_SETTLE, without DONE between the halves (R185). -/
def Obligations.PowerDownPhasesEnd : Prop :=
  ∀ (i : Instr) (s : State), Runnable s → s.frx.tmr = 1 →
    ∃ t, exec i s = .next t ∧
      (s.frx.seq = .pdLow →
        t.frx =
          { s.frx with
            seq := .pdHold, tmr := s.par.tPd, sckQ := true
            done := t.frx.done, ovr := t.frx.ovr, sync := shiftedSync s }) ∧
      (s.frx.seq = .pdHold → s.frx.op = .resetDev →
        t.frx =
          { s.frx with
            pwr := .poweredDown, devg := some .g128, seq := .puSettle, tmr := s.par.tPu, sckQ := false
            done := t.frx.done, ovr := t.frx.ovr, sync := shiftedSync s }) ∧
      (s.frx.seq = .pdHold → s.frx.op ≠ .resetDev →
        t.frx =
          { s.frx with
            pwr := .poweredDown, devg := some .g128
            seq := .idle, op := .none, done := true, err := .ok
            ovr := t.frx.ovr, sync := shiftedSync s })

/-- R180: the end of PU_SETTLE. -/
def Obligations.PowerUpSettleEnds : Prop :=
  ∀ (i : Instr) (s : State), Runnable s → s.frx.seq = .puSettle → s.frx.tmr = 1 →
    ∃ t, exec i s = .next t ∧
      (s.frx.op = .init ∨ s.frx.gain ≠ .g128 →
        t.frx =
          { s.frx with
            pwr := .active, seq := .wait, wcnt := 0, discard := true
            done := t.frx.done, ovr := t.frx.ovr, sync := shiftedSync s }) ∧
      (s.frx.op ≠ .init → s.frx.gain = .g128 →
        t.frx =
          { s.frx with
            pwr := .active, seq := .idle, op := .none, done := true, err := .ok
            ovr := t.frx.ovr, sync := shiftedSync s })

/-! ## Deserializer, decoder, gain-pulse encoder -/

/-- R143: where each received bit lands, under each setting of the flags. -/
def Obligations.AssemblePlacesEveryBit : Prop :=
  ∀ (s : SerialBits) (j : Fin 3) (i : Fin 8),
    (assemble s .msbFirst .msbFirst).getLsbD (8 * (2 - j.val) + (7 - i.val)) = s[8 * j.val + i.val] ∧
    (assemble s .lsbFirst .msbFirst).getLsbD (8 * (2 - j.val) + i.val) = s[8 * j.val + i.val] ∧
    (assemble s .msbFirst .lsbFirst).getLsbD (8 * j.val + (7 - i.val)) = s[8 * j.val + i.val] ∧
    (assemble s .lsbFirst .lsbFirst).getLsbD (8 * j.val + i.val) = s[8 * j.val + i.val]

/-- R144: for each of the four flag settings, every 24-bit frame is the frame of exactly one string of received bits. -/
def Obligations.AssembleIsABijection : Prop :=
  ∀ bitord byteord : Order, Function.Bijective fun s : SerialBits => assemble s bitord byteord

/-- R145: DECODE, and the range its result cannot leave. -/
def Obligations.DecodeIsTwosComplement : Prop :=
  ∀ frame : Frame,
    (dataWord frame).toInt = (if frame.getLsbD 23 = true then (frame.toNat : Int) - (2 : Int) ^ 24 else (frame.toNat : Int)) ∧
    dataWord frame = frame.signExtend 32 ∧ (rawWord frame).toNat = frame.toNat ∧
    -(2 : Int) ^ 23 ≤ (dataWord frame).toInt ∧ (dataWord frame).toInt ≤ (2 : Int) ^ 23 - 1

/-- R147: the table of gain pulses, P being defined for codes 0 to 2 alone. -/
def Obligations.GainPulseTable : Prop :=
  (gainOfCode 0 = some .g128 ∧ gainFactor .g128 = 128 ∧ pulses .g128 = 1 ∧ channelOf .g128 = .a) ∧
  (gainOfCode 1 = some .g64 ∧ gainFactor .g64 = 64 ∧ pulses .g64 = 3 ∧ channelOf .g64 = .a) ∧
  (gainOfCode 2 = some .g32 ∧ gainFactor .g32 = 32 ∧ pulses .g32 = 2 ∧ channelOf .g32 = .b) ∧
  gainOfCode 3 = none ∧ ∀ g, gainOfCode (gainCode g) = some g

/-! ## The whole machine -/

/-- Every step keeps the invariant of Safety.lean: the synchronizer's depth (R48), timers that never stop (R117), the clock
level of each phase (R123), commands and phases that fit (R42, R181), no flag up while a command runs (R97), the bounded wait
(R116), the gain pulses (R119), DATA and RAW of one frame (R27, R28, R249), and the device's open frame (R129). -/
def Obligations.EveryStepKeepsTheInvariant : Prop :=
  ∀ s t : State, Inv s → step s = .next t → Inv t

/-- R171: only the acceptance of SET_GAIN with a legal code writes GAIN, and `rst`. -/
def Obligations.OnlySetGainWritesGain : Prop :=
  ∀ s t : State, step s = .next t → t.frx.gain ≠ s.frx.gain →
    (nextInput s = .rst ∧ t.frx.gain = .g128) ∨
    (s.frx.seq = .idle ∧ ∃ w, nextInput s = .access w ∧
      (portSignals w).wrEn = true ∧ (portSignals w).addr = 1 ∧
      (((portSignals w).wdata = 0x00000002 ∧ t.frx.gain = .g128) ∨
        ((portSignals w).wdata = 0x00000012 ∧ t.frx.gain = .g64) ∨
        ((portSignals w).wdata = 0x00000022 ∧ t.frx.gain = .g32)))

/-- R27, R28, R72, R152: but for `rst`, the sample registers change only at the end of a frame that is no discard frame, all at
that edge. -/
def Obligations.OnlyASampleWritesTheSampleRegisters : Prop :=
  ∀ s t : State, step s = .next t → nextInput s ≠ .rst →
    t.frx.data ≠ s.frx.data ∨ t.frx.raw ≠ s.frx.raw ∨ t.frx.dtag ≠ s.frx.dtag ∨ t.frx.valid ≠ s.frx.valid →
    s.frx.seq = .pulseLow ∧ s.frx.tmr = 1 ∧ pulses s.frx.gain ≤ s.frx.k.val + 1 ∧ s.frx.discard = false ∧
      t.frx.raw = rawWord (assemble s.frx.sbits s.frx.bitord s.frx.byteord) ∧
      t.frx.data = dataWord (assemble s.frx.sbits s.frx.bitord s.frx.byteord) ∧
      t.frx.dtag = s.frx.devg ∧ t.frx.valid = true ∧ t.frx.seq = .idle

/-- R46: while BUSY, nothing but `rst` changes CFG, GAIN or TIMEOUT. -/
def Obligations.SettingsHoldWhileBusy : Prop :=
  ∀ s t : State, step s = .next t → nextInput s ≠ .rst → s.frx.seq ≠ .idle →
    t.frx.bitord = s.frx.bitord ∧ t.frx.byteord = s.frx.byteord ∧ t.frx.irqen = s.frx.irqen ∧
      t.frx.gain = s.frx.gain ∧ t.frx.timeout = s.frx.timeout

/-- R122, R219: as long as a command runs, the whole run of the block (but OVR and DONE) and of the device is the same whatever
the host does at each edge. That both runs see the same draws is the model's (log entry 4). -/
def Obligations.HostCannotDisturbARunningCommand : Prop :=
  ∀ (k : Nat) (s t : State) (other : List EdgeInput),
    (∀ x ∈ s.port, x ≠ .rst) → (∀ x ∈ other, x ≠ .rst) →
    (∀ j u, j < k → runEdges j s = .next u → u.frx.seq ≠ .idle) →
    runEdges k s = .next t →
    ∃ t', runEdges k { s with port := other } = .next t' ∧ t'.dev = t.dev ∧
      t'.frx = { t.frx with done := t'.frx.done, ovr := t'.frx.ovr }

/-- R181, R187: but for `rst`, PWR changes only at the end of PD_HOLD and of PU_SETTLE. -/
def Obligations.PowerChangesOnlyAsAPowerPhaseEnds : Prop :=
  ∀ s t : State, step s = .next t → nextInput s ≠ .rst → t.frx.pwr ≠ s.frx.pwr →
    (s.frx.seq = .pdHold ∧ s.frx.tmr = 1 ∧ t.frx.pwr = .poweredDown) ∨
      (s.frx.seq = .puSettle ∧ s.frx.tmr = 1 ∧ t.frx.pwr = .active)

/-- R188, R221, R179: FRX makes a falling clock edge to a device it has powered down, or has held the clock high for, only on
entering PU_SETTLE (R176 at the end of RESET_DEV's PD_HOLD, where PWR still reads 0). -/
def Obligations.OnlyPowerUpWakesTheDevice : Prop :=
  ∀ s t : State, Inv s → step s = .next t → s.frx.seq = .pdHold ∨ s.frx.pwr = .poweredDown →
    s.frx.sckQ = true → t.frx.sckQ = false → t.frx.seq = .puSettle ∧ t.frx.tmr = s.par.tPu

/-- R210, R97: `irq` is IRQEN ∧ DONE, and is low as long as a command runs. -/
def Obligations.InterruptLevelFollowsDone : Prop :=
  ∀ s : State, (irq s = true ↔ s.frx.irqen = true ∧ s.frx.done = true) ∧ (Inv s → s.frx.seq ≠ .idle → irq s = false)

/-! ## Runs of many edges -/

/-- R111, R112: `din` is the data-line level S edges ago. -/
def Obligations.DinIsTheLevelSEdgesAgo : Prop :=
  ∀ s : State, Runnable s → noRstFor s.par.syncStages s →
    ∃ t, runEdges s.par.syncStages s = .next t ∧ din t.par t.dev.line t.frx = s.dev.line

/-- R122, R153, R157: from its first assertion a frame is (24 + P) · `T_BIT` edges long, each pulse `T_HIGH` cycles high then
`T_LOW` low with no gap, and it completes OK, whatever the device and the host do. -/
def Obligations.FrameLastsItsPulses : Prop :=
  ∀ s : State, Inv s → s.frx.seq = .bitHigh → s.frx.n = 0 → s.frx.tmr = s.par.tHigh →
    noRstFor ((24 + pulses s.frx.gain) * (s.par.tHigh + s.par.tLow)) s →
    (∀ j, j < (24 + pulses s.frx.gain) * (s.par.tHigh + s.par.tLow) →
      ∃ u, runEdges j s = .next u ∧ u.frx.seq ≠ .idle ∧
        u.frx.sckQ = decide (j % (s.par.tHigh + s.par.tLow) < s.par.tHigh)) ∧
    ∃ t, runEdges ((24 + pulses s.frx.gain) * (s.par.tHigh + s.par.tLow)) s = .next t ∧
      t.frx.seq = .idle ∧ t.frx.done = true ∧ t.frx.err = .ok ∧ t.frx.devg = some s.frx.gain ∧ t.frx.sckQ = false

/-- R116, R203: with TIMEOUT = t ≥ 1, t failed ready tests complete the command with ERR = TIMEOUT, no pulse on the line and
every register as it was, but DONE, ERR and OVR. -/
def Obligations.BoundedWaitTimesOut : Prop :=
  ∀ s : State, Runnable s → s.frx.seq = .wait → s.frx.wcnt = 0 → s.frx.timeout ≠ 0 →
    noRstFor s.frx.timeout.toNat s →
    (∀ j u, j < s.frx.timeout.toNat → runEdges j s = .next u → din u.par u.dev.line u.frx ≠ u.par.readyLevel) →
    (∀ j u, j < s.frx.timeout.toNat → runEdges j s = .next u → u.frx.seq = .wait ∧ u.frx.sckQ = s.frx.sckQ) ∧
    ∃ t, runEdges s.frx.timeout.toNat s = .next t ∧
      t.frx =
        { s.frx with
          seq := .idle, op := .none, done := true, err := .timeout
          wcnt := t.frx.wcnt, ovr := t.frx.ovr, sync := t.frx.sync }

/-- R177, R176, K3: POWER_DOWN raises the clock `T_LOW` edges after its acceptance, completes after `T_PD` more, and by then
the device has powered down. -/
def Obligations.PowerDownReachesTheDevice : Prop :=
  ∀ (s : State) (w : HostWord), Inv s → s.frx.seq = .idle → s.frx.pwr = .active → nextInput s = .access w →
    decode w = .powerDown → noRstFor (s.par.tLow + s.par.tPd + 1) s →
    (∀ j, j < s.par.tLow + s.par.tPd →
      ∃ u, runEdges (j + 1) s = .next u ∧ u.frx.seq ≠ .idle ∧ u.frx.sckQ = decide (s.par.tLow ≤ j)) ∧
    ∃ t, runEdges (s.par.tLow + s.par.tPd + 1) s = .next t ∧
      t.frx.seq = .idle ∧ t.frx.done = true ∧ t.frx.err = .ok ∧ t.frx.pwr = .poweredDown ∧
      t.frx.devg = some .g128 ∧ t.frx.sckQ = true ∧ t.dev.on = false

/-- R186, R183, R182 (b): at gain 128, RESET_DEV while ACTIVE takes `T_LOW` + `T_PD` + `T_PU` edges, and leaves the device
awake with DEVG = GAIN and every sample register as it was (R188). -/
def Obligations.ResetDevAtGain128TakesItsPhases : Prop :=
  ∀ (s : State) (w : HostWord), Inv s → s.frx.seq = .idle → s.frx.pwr = .active → s.frx.gain = .g128 →
    nextInput s = .access w → decode w = .resetDev → noRstFor (s.par.tLow + s.par.tPd + s.par.tPu + 1) s →
    (∀ j u, j < s.par.tLow + s.par.tPd + s.par.tPu → runEdges (j + 1) s = .next u → u.frx.seq ≠ .idle) ∧
    ∃ t, runEdges (s.par.tLow + s.par.tPd + s.par.tPu + 1) s = .next t ∧
      t.frx.seq = .idle ∧ t.frx.done = true ∧ t.frx.err = .ok ∧ t.frx.pwr = .active ∧
      t.frx.devg = some .g128 ∧ t.frx.sckQ = false ∧ t.dev.on = true ∧
      t.frx.data = s.frx.data ∧ t.frx.raw = s.frx.raw ∧ t.frx.dtag = s.frx.dtag ∧ t.frx.valid = s.frx.valid

/-- R120, R121, R127, R152, R157: the headline of the bit transport. Against a device that meets its contract and has a conversion
waiting, the frame that a successful ready test starts brings exactly the device's 24 bits into RAW and DATA, tagged with the gain
recorded for it, (24 + P) · `T_BIT` edges after its first assertion. -/
def Obligations.FrameDeliversTheDevicesWord : Prop :=
  ∀ s : State, Inv s → s.frx.seq = .wait → s.frx.op = .acquire →
    din s.par s.dev.line s.frx = s.par.readyLevel →
    s.dev.on = true → s.dev.avail = true → s.dev.c = 0 → s.dev.stray = 0 → s.dev.h = 0 →
    noRstFor (1 + (24 + pulses s.frx.gain) * (s.par.tHigh + s.par.tLow)) s →
    ∃ t, runEdges (1 + (24 + pulses s.frx.gain) * (s.par.tHigh + s.par.tLow)) s = .next t ∧
      t.frx.seq = .idle ∧ t.frx.done = true ∧ t.frx.err = .ok ∧ t.frx.valid = true ∧
      t.frx.raw = rawWord (assemble s.dev.w s.frx.bitord s.frx.byteord) ∧
      t.frx.data = dataWord (assemble s.dev.w s.frx.bitord s.frx.byteord) ∧
      t.frx.dtag = s.frx.devg ∧ t.frx.devg = some s.frx.gain

/-! ## The device agent -/

/-- R126: after any edge with `rst` = 0, outside a frame, the line of a device that is on is READY exactly when a conversion is
available (no undetermined level being due, R127). -/
def Obligations.LineIsReadyExactlyWhenAvailable : Prop :=
  ∀ (i : Instr) (s t : State), exec i s = .next t → t.dev.on = true → t.dev.c = 0 → t.dev.stray = 0 →
    (t.dev.line = s.par.readyLevel ↔ t.dev.avail = true)

/-- R127, R128: the device counts the rising edges of a frame. The first takes the conversion and opens the window. -/
def Obligations.DeviceCountsRisingEdges : Prop :=
  ∀ (i : Instr) (s t : State), exec i s = .next t → s.dev.on = true → s.frx.sckQ = false → t.frx.sckQ = true →
    s.dev.h + 1 < s.par.tDevPd → s.dev.window ≠ 1 →
    (s.dev.c = 0 → s.dev.avail = true →
      t.dev.c = 1 ∧ t.dev.avail = false ∧ t.dev.w = s.dev.w ∧ t.dev.window = s.par.tFrameMax ∧ t.dev.dgain = s.dev.dgain) ∧
    (s.dev.c ≠ 0 →
      t.dev.c = s.dev.c + 1 ∧ t.dev.avail = s.dev.avail ∧ t.dev.w = s.dev.w ∧ t.dev.dgain = s.dev.dgain ∧
        t.dev.window = s.dev.window - 1)

/-- R129: as the window closes, a frame of 25, 26 or 27 rising edges programs 128/A, 32/B or 64/A. -/
def Obligations.ClosingWindowProgramsTheGain : Prop :=
  ∀ (i : Instr) (s t : State), exec i s = .next t → s.dev.on = true → s.dev.window = 1 → t.dev.on = true →
    ¬ (s.frx.sckQ = false ∧ t.frx.sckQ = true) →
    t.dev.c = 0 ∧ t.dev.window = 0 ∧ (s.dev.c = 25 → t.dev.dgain = .g128) ∧ (s.dev.c = 26 → t.dev.dgain = .g32) ∧
      (s.dev.c = 27 → t.dev.dgain = .g64)

/-- R130: `T_DEV_PD` cycles of asserted clock power the device down and reset its gain (over a window that closes at the same
edge, log entry 27); a falling edge powers it up, at gain 128 even where a draw left it off (log entry 11). -/
def Obligations.HeldClockPowersTheDeviceDown : Prop :=
  ∀ (i : Instr) (s t : State), exec i s = .next t →
    (s.dev.on = true → t.frx.sckQ = true → s.par.tDevPd ≤ s.dev.h + 1 →
      t.dev.on = false ∧ t.dev.avail = false ∧ t.dev.c = 0 ∧ t.dev.dgain = .g128) ∧
    (s.dev.on = false → s.frx.sckQ = true → t.frx.sckQ = false →
      t.dev.on = true ∧ t.dev.avail = false ∧ t.dev.c = 0 ∧ t.dev.dgain = .g128) ∧
    (s.dev.on = false → ¬ (s.frx.sckQ = true ∧ t.frx.sckQ = false) → t.dev.on = false)

/-- R179, R231, R130, U24: a reset at which `sck` falls wakes a device that is off. That the wake stands over R125's draw is the
model's (log entry 16), and so is gain 128 where an earlier reset's draw left the device off (log entry 11). R126 to R128: the
line follows from the device a reset leaves, outside a frame and in one (with `T_DV` = 0, where no level is still delayed); that
the drawn line does is the model's (log entry 16), and so is that a held reset draws at its first edge alone, which
`resetHeld s = false` picks out (log entry 28). -/
def Obligations.ResetEdgeMeetsTheDevice : Prop :=
  ∀ s t : State, resetEdge s = .next t →
    (s.dev.on = false → s.frx.sckQ = true →
      t.dev.on = true ∧ t.dev.avail = false ∧ t.dev.c = 0 ∧ t.dev.dgain = .g128) ∧
    (t.dev.on = true → t.dev.stray = 0 → t.dev.c = 0 → (t.dev.line = s.par.readyLevel ↔ t.dev.avail = true)) ∧
    (resetHeld s = false → s.par.tDv = 0 → t.dev.on = true → t.dev.stray = 0 →
      (∀ n : Fin 24, t.dev.c = n.val + 1 → t.dev.line = t.dev.w[n.val]) ∧
        (25 ≤ t.dev.c → t.dev.line = !s.par.readyLevel))

/-! ## Host programs -/

/-- R102: a POLL reads its register at successive edges until the field equals the value. -/
def Obligations.PollReadsUntilTheFieldMatches : Prop :=
  ∀ (s : State) (field : Field) (value : Nat) (rest : List EdgeInput), Runnable s →
    s.port = .poll field value :: rest →
    ∃ t u, step s = .next t ∧ idleEdge s = .next u ∧ t.frx = u.frx ∧ t.dev = u.dev ∧
      t.lastRead = rdata s (fieldReg field) ∧
      (fieldValue field (rdata s (fieldReg field)) = value → t.port = rest) ∧
      (fieldValue field (rdata s (fieldReg field)) ≠ value → t.port = s.port)

/-- R101, R103: what the assembler makes of every pseudo-instruction, and what it refuses. That it refuses SET_GAIN with no
`g=` is the model's choice (log entry 26). -/
def Obligations.PseudoInstructionsAssemble : Prop :=
  (∀ factor, assembleLine (.cmd .setGain (some factor)) =
    if factor = 128 then some [.access (.cmd32 0x00000002)]
    else if factor = 64 then some [.access (.cmd32 0x00000012)]
    else if factor = 32 then some [.access (.cmd32 0x00000022)]
    else none) ∧
  assembleLine (.cmd .setGain none) = none ∧
  (∀ name factor, name ≠ .setGain → assembleLine (.cmd name (some factor)) = none) ∧
  (∀ name word,
    (name, word) ∈
      [(CmdName.nop, (0x00000000 : Word)), (.acquire, 0x00000001), (.powerDown, 0x00000003), (.powerUp, 0x00000004),
        (.resetDev, 0x00000005)] →
    assembleLine (.cmd name none) = some [.access (.cmd32 word)]) ∧
  assembleLine .waitDone = some [.poll .busy 0, .access (.busop 0b0010 0)] ∧
  (∀ name g, assembleLine (.cmdw name g) =
    (assembleLine (.cmd name g)).map (· ++ [.poll .busy 0, .access (.busop 0b0010 0)])) ∧
  assembleLine (.w1c false false) = some [.access (.busop 0b1010 0x00000000)] ∧
  assembleLine (.w1c true false) = some [.access (.busop 0b1010 0x00000002)] ∧
  assembleLine (.w1c false true) = some [.access (.busop 0b1010 0x00002000)] ∧
  assembleLine (.w1c true true) = some [.access (.busop 0b1010 0x00002002)]
end

