-- ==== Sys2Proof/Laws/State.lean ====
section
/-! SUPPORT. One lemma per field of each named update of the block and of the machine. -/

namespace Sys2Proof.Laws

open Sys2Proof.Machine

section enter
variable (ph : Phase) (t : Nat) (f : Frx)
@[simp] theorem enter_bitord : (enter ph t f).bitord = f.bitord := rfl
@[simp] theorem enter_byteord : (enter ph t f).byteord = f.byteord := rfl
@[simp] theorem enter_irqen : (enter ph t f).irqen = f.irqen := rfl
@[simp] theorem enter_timeout : (enter ph t f).timeout = f.timeout := rfl
@[simp] theorem enter_done : (enter ph t f).done = f.done := rfl
@[simp] theorem enter_err : (enter ph t f).err = f.err := rfl
@[simp] theorem enter_pwr : (enter ph t f).pwr = f.pwr := rfl
@[simp] theorem enter_gain : (enter ph t f).gain = f.gain := rfl
@[simp] theorem enter_devg : (enter ph t f).devg = f.devg := rfl
@[simp] theorem enter_dtag : (enter ph t f).dtag = f.dtag := rfl
@[simp] theorem enter_valid : (enter ph t f).valid = f.valid := rfl
@[simp] theorem enter_ovr : (enter ph t f).ovr = f.ovr := rfl
@[simp] theorem enter_data : (enter ph t f).data = f.data := rfl
@[simp] theorem enter_raw : (enter ph t f).raw = f.raw := rfl
@[simp] theorem enter_seq : (enter ph t f).seq = ph := rfl
@[simp] theorem enter_tmr : (enter ph t f).tmr = t := rfl
@[simp] theorem enter_op : (enter ph t f).op = f.op := rfl
@[simp] theorem enter_discard : (enter ph t f).discard = f.discard := rfl
@[simp] theorem enter_wcnt : (enter ph t f).wcnt = f.wcnt := rfl
@[simp] theorem enter_n : (enter ph t f).n = f.n := rfl
@[simp] theorem enter_k : (enter ph t f).k = f.k := rfl
@[simp] theorem enter_sbits : (enter ph t f).sbits = f.sbits := rfl
@[simp] theorem enter_sckQ : (enter ph t f).sckQ = f.sckQ := rfl
@[simp] theorem enter_sync : (enter ph t f).sync = f.sync := rfl
end enter

section setSck
variable (b : Bool) (f : Frx)
@[simp] theorem setSck_bitord : (setSck b f).bitord = f.bitord := rfl
@[simp] theorem setSck_byteord : (setSck b f).byteord = f.byteord := rfl
@[simp] theorem setSck_irqen : (setSck b f).irqen = f.irqen := rfl
@[simp] theorem setSck_timeout : (setSck b f).timeout = f.timeout := rfl
@[simp] theorem setSck_done : (setSck b f).done = f.done := rfl
@[simp] theorem setSck_err : (setSck b f).err = f.err := rfl
@[simp] theorem setSck_pwr : (setSck b f).pwr = f.pwr := rfl
@[simp] theorem setSck_gain : (setSck b f).gain = f.gain := rfl
@[simp] theorem setSck_devg : (setSck b f).devg = f.devg := rfl
@[simp] theorem setSck_dtag : (setSck b f).dtag = f.dtag := rfl
@[simp] theorem setSck_valid : (setSck b f).valid = f.valid := rfl
@[simp] theorem setSck_ovr : (setSck b f).ovr = f.ovr := rfl
@[simp] theorem setSck_data : (setSck b f).data = f.data := rfl
@[simp] theorem setSck_raw : (setSck b f).raw = f.raw := rfl
@[simp] theorem setSck_seq : (setSck b f).seq = f.seq := rfl
@[simp] theorem setSck_tmr : (setSck b f).tmr = f.tmr := rfl
@[simp] theorem setSck_op : (setSck b f).op = f.op := rfl
@[simp] theorem setSck_discard : (setSck b f).discard = f.discard := rfl
@[simp] theorem setSck_wcnt : (setSck b f).wcnt = f.wcnt := rfl
@[simp] theorem setSck_n : (setSck b f).n = f.n := rfl
@[simp] theorem setSck_k : (setSck b f).k = f.k := rfl
@[simp] theorem setSck_sbits : (setSck b f).sbits = f.sbits := rfl
@[simp] theorem setSck_sckQ : (setSck b f).sckQ = b := rfl
@[simp] theorem setSck_sync : (setSck b f).sync = f.sync := rfl
end setSck

section complete
variable (code : Err) (f : Frx)
@[simp] theorem complete_bitord : (complete code f).bitord = f.bitord := rfl
@[simp] theorem complete_byteord : (complete code f).byteord = f.byteord := rfl
@[simp] theorem complete_irqen : (complete code f).irqen = f.irqen := rfl
@[simp] theorem complete_timeout : (complete code f).timeout = f.timeout := rfl
@[simp] theorem complete_done : (complete code f).done = true := rfl
@[simp] theorem complete_err : (complete code f).err = code := rfl
@[simp] theorem complete_pwr : (complete code f).pwr = f.pwr := rfl
@[simp] theorem complete_gain : (complete code f).gain = f.gain := rfl
@[simp] theorem complete_devg : (complete code f).devg = f.devg := rfl
@[simp] theorem complete_dtag : (complete code f).dtag = f.dtag := rfl
@[simp] theorem complete_valid : (complete code f).valid = f.valid := rfl
@[simp] theorem complete_ovr : (complete code f).ovr = f.ovr := rfl
@[simp] theorem complete_data : (complete code f).data = f.data := rfl
@[simp] theorem complete_raw : (complete code f).raw = f.raw := rfl
@[simp] theorem complete_seq : (complete code f).seq = .idle := rfl
@[simp] theorem complete_tmr : (complete code f).tmr = f.tmr := rfl
@[simp] theorem complete_op : (complete code f).op = .none := rfl
@[simp] theorem complete_discard : (complete code f).discard = f.discard := rfl
@[simp] theorem complete_wcnt : (complete code f).wcnt = f.wcnt := rfl
@[simp] theorem complete_n : (complete code f).n = f.n := rfl
@[simp] theorem complete_k : (complete code f).k = f.k := rfl
@[simp] theorem complete_sbits : (complete code f).sbits = f.sbits := rfl
@[simp] theorem complete_sckQ : (complete code f).sckQ = f.sckQ := rfl
@[simp] theorem complete_sync : (complete code f).sync = f.sync := rfl
end complete

section completeAtOnce
variable (code : Err) (f : Frx)
@[simp] theorem completeAtOnce_bitord : (completeAtOnce code f).bitord = f.bitord := rfl
@[simp] theorem completeAtOnce_byteord : (completeAtOnce code f).byteord = f.byteord := rfl
@[simp] theorem completeAtOnce_irqen : (completeAtOnce code f).irqen = f.irqen := rfl
@[simp] theorem completeAtOnce_timeout : (completeAtOnce code f).timeout = f.timeout := rfl
@[simp] theorem completeAtOnce_done : (completeAtOnce code f).done = true := rfl
@[simp] theorem completeAtOnce_err : (completeAtOnce code f).err = code := rfl
@[simp] theorem completeAtOnce_pwr : (completeAtOnce code f).pwr = f.pwr := rfl
@[simp] theorem completeAtOnce_gain : (completeAtOnce code f).gain = f.gain := rfl
@[simp] theorem completeAtOnce_devg : (completeAtOnce code f).devg = f.devg := rfl
@[simp] theorem completeAtOnce_dtag : (completeAtOnce code f).dtag = f.dtag := rfl
@[simp] theorem completeAtOnce_valid : (completeAtOnce code f).valid = f.valid := rfl
@[simp] theorem completeAtOnce_ovr : (completeAtOnce code f).ovr = f.ovr := rfl
@[simp] theorem completeAtOnce_data : (completeAtOnce code f).data = f.data := rfl
@[simp] theorem completeAtOnce_raw : (completeAtOnce code f).raw = f.raw := rfl
@[simp] theorem completeAtOnce_seq : (completeAtOnce code f).seq = f.seq := rfl
@[simp] theorem completeAtOnce_tmr : (completeAtOnce code f).tmr = f.tmr := rfl
@[simp] theorem completeAtOnce_op : (completeAtOnce code f).op = .none := rfl
@[simp] theorem completeAtOnce_discard : (completeAtOnce code f).discard = f.discard := rfl
@[simp] theorem completeAtOnce_wcnt : (completeAtOnce code f).wcnt = f.wcnt := rfl
@[simp] theorem completeAtOnce_n : (completeAtOnce code f).n = f.n := rfl
@[simp] theorem completeAtOnce_k : (completeAtOnce code f).k = f.k := rfl
@[simp] theorem completeAtOnce_sbits : (completeAtOnce code f).sbits = f.sbits := rfl
@[simp] theorem completeAtOnce_sckQ : (completeAtOnce code f).sckQ = f.sckQ := rfl
@[simp] theorem completeAtOnce_sync : (completeAtOnce code f).sync = f.sync := rfl
end completeAtOnce

section accept
variable (op : Op) (f : Frx)
@[simp] theorem accept_bitord : (accept op f).bitord = f.bitord := rfl
@[simp] theorem accept_byteord : (accept op f).byteord = f.byteord := rfl
@[simp] theorem accept_irqen : (accept op f).irqen = f.irqen := rfl
@[simp] theorem accept_timeout : (accept op f).timeout = f.timeout := rfl
@[simp] theorem accept_done : (accept op f).done = false := rfl
@[simp] theorem accept_err : (accept op f).err = .ok := rfl
@[simp] theorem accept_pwr : (accept op f).pwr = f.pwr := rfl
@[simp] theorem accept_gain : (accept op f).gain = f.gain := rfl
@[simp] theorem accept_devg : (accept op f).devg = f.devg := rfl
@[simp] theorem accept_dtag : (accept op f).dtag = f.dtag := rfl
@[simp] theorem accept_valid : (accept op f).valid = f.valid := rfl
@[simp] theorem accept_ovr : (accept op f).ovr = f.ovr := rfl
@[simp] theorem accept_data : (accept op f).data = f.data := rfl
@[simp] theorem accept_raw : (accept op f).raw = f.raw := rfl
@[simp] theorem accept_seq : (accept op f).seq = f.seq := rfl
@[simp] theorem accept_tmr : (accept op f).tmr = f.tmr := rfl
@[simp] theorem accept_op : (accept op f).op = op := rfl
@[simp] theorem accept_discard : (accept op f).discard = f.discard := rfl
@[simp] theorem accept_wcnt : (accept op f).wcnt = f.wcnt := rfl
@[simp] theorem accept_n : (accept op f).n = f.n := rfl
@[simp] theorem accept_k : (accept op f).k = f.k := rfl
@[simp] theorem accept_sbits : (accept op f).sbits = f.sbits := rfl
@[simp] theorem accept_sckQ : (accept op f).sckQ = f.sckQ := rfl
@[simp] theorem accept_sync : (accept op f).sync = f.sync := rfl
end accept

section startFrame
variable (d : Bool) (f : Frx)
@[simp] theorem startFrame_bitord : (startFrame d f).bitord = f.bitord := rfl
@[simp] theorem startFrame_byteord : (startFrame d f).byteord = f.byteord := rfl
@[simp] theorem startFrame_irqen : (startFrame d f).irqen = f.irqen := rfl
@[simp] theorem startFrame_timeout : (startFrame d f).timeout = f.timeout := rfl
@[simp] theorem startFrame_done : (startFrame d f).done = f.done := rfl
@[simp] theorem startFrame_err : (startFrame d f).err = f.err := rfl
@[simp] theorem startFrame_pwr : (startFrame d f).pwr = f.pwr := rfl
@[simp] theorem startFrame_gain : (startFrame d f).gain = f.gain := rfl
@[simp] theorem startFrame_devg : (startFrame d f).devg = f.devg := rfl
@[simp] theorem startFrame_dtag : (startFrame d f).dtag = f.dtag := rfl
@[simp] theorem startFrame_valid : (startFrame d f).valid = f.valid := rfl
@[simp] theorem startFrame_ovr : (startFrame d f).ovr = f.ovr := rfl
@[simp] theorem startFrame_data : (startFrame d f).data = f.data := rfl
@[simp] theorem startFrame_raw : (startFrame d f).raw = f.raw := rfl
@[simp] theorem startFrame_seq : (startFrame d f).seq = .wait := rfl
@[simp] theorem startFrame_tmr : (startFrame d f).tmr = f.tmr := rfl
@[simp] theorem startFrame_op : (startFrame d f).op = f.op := rfl
@[simp] theorem startFrame_discard : (startFrame d f).discard = d := rfl
@[simp] theorem startFrame_wcnt : (startFrame d f).wcnt = 0 := rfl
@[simp] theorem startFrame_n : (startFrame d f).n = f.n := rfl
@[simp] theorem startFrame_k : (startFrame d f).k = f.k := rfl
@[simp] theorem startFrame_sbits : (startFrame d f).sbits = f.sbits := rfl
@[simp] theorem startFrame_sckQ : (startFrame d f).sckQ = f.sckQ := rfl
@[simp] theorem startFrame_sync : (startFrame d f).sync = f.sync := rfl
end startFrame

section writeCfg
variable (v : Word) (f : Frx)
@[simp] theorem writeCfg_bitord : (writeCfg v f).bitord = orderOfBit (v.getLsbD 0) := rfl
@[simp] theorem writeCfg_byteord : (writeCfg v f).byteord = orderOfBit (v.getLsbD 1) := rfl
@[simp] theorem writeCfg_irqen : (writeCfg v f).irqen = v.getLsbD 2 := rfl
@[simp] theorem writeCfg_timeout : (writeCfg v f).timeout = f.timeout := rfl
@[simp] theorem writeCfg_done : (writeCfg v f).done = f.done := rfl
@[simp] theorem writeCfg_err : (writeCfg v f).err = f.err := rfl
@[simp] theorem writeCfg_pwr : (writeCfg v f).pwr = f.pwr := rfl
@[simp] theorem writeCfg_gain : (writeCfg v f).gain = f.gain := rfl
@[simp] theorem writeCfg_devg : (writeCfg v f).devg = f.devg := rfl
@[simp] theorem writeCfg_dtag : (writeCfg v f).dtag = f.dtag := rfl
@[simp] theorem writeCfg_valid : (writeCfg v f).valid = f.valid := rfl
@[simp] theorem writeCfg_ovr : (writeCfg v f).ovr = f.ovr := rfl
@[simp] theorem writeCfg_data : (writeCfg v f).data = f.data := rfl
@[simp] theorem writeCfg_raw : (writeCfg v f).raw = f.raw := rfl
@[simp] theorem writeCfg_seq : (writeCfg v f).seq = f.seq := rfl
@[simp] theorem writeCfg_tmr : (writeCfg v f).tmr = f.tmr := rfl
@[simp] theorem writeCfg_op : (writeCfg v f).op = f.op := rfl
@[simp] theorem writeCfg_discard : (writeCfg v f).discard = f.discard := rfl
@[simp] theorem writeCfg_wcnt : (writeCfg v f).wcnt = f.wcnt := rfl
@[simp] theorem writeCfg_n : (writeCfg v f).n = f.n := rfl
@[simp] theorem writeCfg_k : (writeCfg v f).k = f.k := rfl
@[simp] theorem writeCfg_sbits : (writeCfg v f).sbits = f.sbits := rfl
@[simp] theorem writeCfg_sckQ : (writeCfg v f).sckQ = f.sckQ := rfl
@[simp] theorem writeCfg_sync : (writeCfg v f).sync = f.sync := rfl
end writeCfg

section writeTimeout
variable (v : Word) (f : Frx)
@[simp] theorem writeTimeout_bitord : (writeTimeout v f).bitord = f.bitord := rfl
@[simp] theorem writeTimeout_byteord : (writeTimeout v f).byteord = f.byteord := rfl
@[simp] theorem writeTimeout_irqen : (writeTimeout v f).irqen = f.irqen := rfl
@[simp] theorem writeTimeout_timeout : (writeTimeout v f).timeout = v := rfl
@[simp] theorem writeTimeout_done : (writeTimeout v f).done = f.done := rfl
@[simp] theorem writeTimeout_err : (writeTimeout v f).err = f.err := rfl
@[simp] theorem writeTimeout_pwr : (writeTimeout v f).pwr = f.pwr := rfl
@[simp] theorem writeTimeout_gain : (writeTimeout v f).gain = f.gain := rfl
@[simp] theorem writeTimeout_devg : (writeTimeout v f).devg = f.devg := rfl
@[simp] theorem writeTimeout_dtag : (writeTimeout v f).dtag = f.dtag := rfl
@[simp] theorem writeTimeout_valid : (writeTimeout v f).valid = f.valid := rfl
@[simp] theorem writeTimeout_ovr : (writeTimeout v f).ovr = f.ovr := rfl
@[simp] theorem writeTimeout_data : (writeTimeout v f).data = f.data := rfl
@[simp] theorem writeTimeout_raw : (writeTimeout v f).raw = f.raw := rfl
@[simp] theorem writeTimeout_seq : (writeTimeout v f).seq = f.seq := rfl
@[simp] theorem writeTimeout_tmr : (writeTimeout v f).tmr = f.tmr := rfl
@[simp] theorem writeTimeout_op : (writeTimeout v f).op = f.op := rfl
@[simp] theorem writeTimeout_discard : (writeTimeout v f).discard = f.discard := rfl
@[simp] theorem writeTimeout_wcnt : (writeTimeout v f).wcnt = f.wcnt := rfl
@[simp] theorem writeTimeout_n : (writeTimeout v f).n = f.n := rfl
@[simp] theorem writeTimeout_k : (writeTimeout v f).k = f.k := rfl
@[simp] theorem writeTimeout_sbits : (writeTimeout v f).sbits = f.sbits := rfl
@[simp] theorem writeTimeout_sckQ : (writeTimeout v f).sckQ = f.sckQ := rfl
@[simp] theorem writeTimeout_sync : (writeTimeout v f).sync = f.sync := rfl
end writeTimeout

section clearStatus
variable (v : Word) (f : Frx)
@[simp] theorem clearStatus_bitord : (clearStatus v f).bitord = f.bitord := rfl
@[simp] theorem clearStatus_byteord : (clearStatus v f).byteord = f.byteord := rfl
@[simp] theorem clearStatus_irqen : (clearStatus v f).irqen = f.irqen := rfl
@[simp] theorem clearStatus_timeout : (clearStatus v f).timeout = f.timeout := rfl
@[simp] theorem clearStatus_done : (clearStatus v f).done = (f.done && !v.getLsbD 1) := rfl
@[simp] theorem clearStatus_err : (clearStatus v f).err = f.err := rfl
@[simp] theorem clearStatus_pwr : (clearStatus v f).pwr = f.pwr := rfl
@[simp] theorem clearStatus_gain : (clearStatus v f).gain = f.gain := rfl
@[simp] theorem clearStatus_devg : (clearStatus v f).devg = f.devg := rfl
@[simp] theorem clearStatus_dtag : (clearStatus v f).dtag = f.dtag := rfl
@[simp] theorem clearStatus_valid : (clearStatus v f).valid = f.valid := rfl
@[simp] theorem clearStatus_ovr : (clearStatus v f).ovr = (f.ovr && !v.getLsbD 13) := rfl
@[simp] theorem clearStatus_data : (clearStatus v f).data = f.data := rfl
@[simp] theorem clearStatus_raw : (clearStatus v f).raw = f.raw := rfl
@[simp] theorem clearStatus_seq : (clearStatus v f).seq = f.seq := rfl
@[simp] theorem clearStatus_tmr : (clearStatus v f).tmr = f.tmr := rfl
@[simp] theorem clearStatus_op : (clearStatus v f).op = f.op := rfl
@[simp] theorem clearStatus_discard : (clearStatus v f).discard = f.discard := rfl
@[simp] theorem clearStatus_wcnt : (clearStatus v f).wcnt = f.wcnt := rfl
@[simp] theorem clearStatus_n : (clearStatus v f).n = f.n := rfl
@[simp] theorem clearStatus_k : (clearStatus v f).k = f.k := rfl
@[simp] theorem clearStatus_sbits : (clearStatus v f).sbits = f.sbits := rfl
@[simp] theorem clearStatus_sckQ : (clearStatus v f).sckQ = f.sckQ := rfl
@[simp] theorem clearStatus_sync : (clearStatus v f).sync = f.sync := rfl
end clearStatus

section advance
variable (host : Frx → Frx) (got : Word) (s : State)
@[simp] theorem advance_par : (advance host got s).par = s.par := rfl
@[simp] theorem advance_resetSeen : (advance host got s).resetSeen = s.resetSeen := rfl
@[simp] theorem advance_frx : (advance host got s).frx = blockEdge s.par s.dev.line host s.frx := rfl
@[simp] theorem advance_dev : (advance host got s).dev = deviceEdge s.par s.draws s.frx.sckQ (blockEdge s.par s.dev.line host s.frx).sckQ s.dev := rfl
@[simp] theorem advance_port : (advance host got s).port = s.port.tail := rfl
@[simp] theorem advance_lastRead : (advance host got s).lastRead = got := rfl
@[simp] theorem advance_draws : (advance host got s).draws = s.draws + 1 := rfl
end advance

section resetState
variable (s : State)
@[simp] theorem resetState_par : (resetState s).par = s.par := rfl
@[simp] theorem resetState_resetSeen : (resetState s).resetSeen = true := rfl
@[simp] theorem resetState_frx : (resetState s).frx = Frx.reset s.par := rfl
@[simp] theorem resetState_dev : (resetState s).dev = resetDevice s := rfl
@[simp] theorem resetState_port : (resetState s).port = s.port.tail := rfl
@[simp] theorem resetState_lastRead : (resetState s).lastRead = s.lastRead := rfl
@[simp] theorem resetState_draws : (resetState s).draws = s.draws + 1 := rfl
end resetState

end Sys2Proof.Laws
end

