-- ==== Sys2Proof/Laws/Edge.lean ====
section
/-! SUPPORT. What one edge can do, said once: an access is one clock edge with its effect on the block, and a clock edge
answers exactly in the states the spec gives a meaning to. -/

namespace Sys2Proof.Laws

open Sys2Proof.Machine

/-- What an instruction's access does to the block before the sequencer runs. -/
def accessEffect (p : Params) : Instr → Frx → Frx
  | .nop => writeWhenIdle startNop
  | .acquire => writeWhenIdle startAcquire
  | .setGain gsel => writeWhenIdle (startSetGainCode gsel)
  | .badGain => writeWhenIdle startBadGain
  | .powerDown => writeWhenIdle (startPowerDown p)
  | .powerUp => writeWhenIdle (startPowerUp p)
  | .resetDev => writeWhenIdle (startResetDev p)
  | .illegalOp6 _ | .illegalOp7 _ => writeWhenIdle startIllegal
  | .rdCfg | .rdCmd | .rdStatus | .rdData | .rdRaw | .rdTimeout | .rdRsvd6 | .rdId => fun f => f
  | .wrCfg v => writeWhenIdle (writeCfg v)
  | .wrCmd v => writeWhenIdle (startVerdict p (verdict v))
  | .wrStatus v => clearStatus v
  | .wrData _ | .wrRaw _ | .wrRsvd6 _ | .wrId _ => fun f => f
  | .wrTimeout v => writeWhenIdle (writeTimeout v)

/-- What the host holds as its last read after an instruction. -/
def accessRead (s : State) : Instr → Word
  | .rdCfg => rdata s .cfg
  | .rdCmd => rdata s .cmd
  | .rdStatus => rdata s .status
  | .rdData => rdata s .data
  | .rdRaw => rdata s .raw
  | .rdTimeout => rdata s .timeout
  | .rdRsvd6 => rdata s .rsvd6
  | .rdId => rdata s .id
  | .nop | .acquire | .setGain _ | .badGain | .powerDown | .powerUp | .resetDev | .illegalOp6 _ | .illegalOp7 _ => s.lastRead
  | .wrCfg _ | .wrCmd _ | .wrStatus _ | .wrData _ | .wrRaw _ | .wrTimeout _ | .wrRsvd6 _ | .wrId _ => s.lastRead

/-- Every instruction is one clock edge with its access. -/
theorem exec_is_clockEdge (i : Instr) (s : State) :
    exec i s = clockEdge (accessEffect s.par i) (accessRead s i) s := by
  cases i <;> rfl

/-- A clock edge answers, with `advance`, exactly where the spec gives it a meaning. -/
theorem clockEdge_next_iff {host : Frx → Frx} {got : Word} {s t : State} :
    clockEdge host got s = .next t ↔ (paramsLegal s.par = true ∧ s.resetSeen = true) ∧ t = advance host got s := by
  unfold clockEdge
  cases paramsLegal s.par <;> cases s.resetSeen <;> simp [eq_comm]

theorem clockEdge_runnable {host : Frx → Frx} {got : Word} {s : State} (hp : paramsLegal s.par = true)
    (hr : s.resetSeen = true) : clockEdge host got s = .next (advance host got s) :=
  clockEdge_next_iff.mpr ⟨⟨hp, hr⟩, rfl⟩

/-- An instruction that answers next advances the machine by its access. -/
theorem exec_next_iff {i : Instr} {s t : State} :
    exec i s = .next t ↔ (paramsLegal s.par = true ∧ s.resetSeen = true) ∧ t = advance (accessEffect s.par i) (accessRead s i) s := by
  rw [exec_is_clockEdge, clockEdge_next_iff]

theorem exec_runnable (i : Instr) {s : State} (hp : paramsLegal s.par = true) (hr : s.resetSeen = true) :
    exec i s = .next (advance (accessEffect s.par i) (accessRead s i) s) :=
  exec_next_iff.mpr ⟨⟨hp, hr⟩, rfl⟩

theorem resetEdge_next_iff {s t : State} : resetEdge s = .next t ↔ paramsLegal s.par = true ∧ t = resetState s := by
  unfold resetEdge
  cases paramsLegal s.par <;> simp [eq_comm]

/-- What a step can be: a reset edge, or one clock edge with an instruction's access (an edge with no access does to the block
what a read does); a `POLL` whose field does not match keeps the port as it was. -/
theorem step_next_cases {s t : State} (h : step s = .next t) :
    (nextInput s = .rst ∧ paramsLegal s.par = true ∧ t = resetState s) ∨
    (nextInput s ≠ .rst ∧ paramsLegal s.par = true ∧ s.resetSeen = true ∧
      ∃ (i : Instr) (got : Word) (port : List EdgeInput), (port = s.port.tail ∨ port = s.port) ∧
        t = { advance (accessEffect s.par i) got s with port := port }) := by
  unfold step presentInput at h
  split at h
  next hx =>
    obtain ⟨hp, rfl⟩ := resetEdge_next_iff.mp h
    exact .inl ⟨hx, hp, rfl⟩
  next hx =>
    obtain ⟨⟨hp, hr⟩, rfl⟩ := clockEdge_next_iff.mp h
    exact .inr ⟨by simp [hx], hp, hr, .rdCmd, s.lastRead, _, .inl rfl, rfl⟩
  next w hx =>
    obtain ⟨⟨hp, hr⟩, rfl⟩ := exec_next_iff.mp h
    exact .inr ⟨by simp [hx], hp, hr, decode w, accessRead s (decode w), _, .inl rfl, rfl⟩
  next fld v hx =>
    unfold pollEdge at h
    split at h
    next t' ht =>
      obtain ⟨⟨hp, hr⟩, rfl⟩ := exec_next_iff.mp ht
      have hi : nextInput s ≠ .rst := by simp [hx]
      split at h
      · exact .inr ⟨hi, hp, hr, _, _, _, .inl rfl, (Host.Outcome.next.inj h).symm⟩
      · exact .inr ⟨hi, hp, hr, _, _, _, .inr rfl, (Host.Outcome.next.inj h).symm⟩
    all_goals simp at h

/-- In the states the spec gives a meaning to, every step answers. -/
theorem step_answers {s : State} (hp : paramsLegal s.par = true) (hr : s.resetSeen = true) : ∃ t, step s = .next t := by
  unfold step presentInput
  split
  · exact ⟨_, resetEdge_next_iff.mpr ⟨hp, rfl⟩⟩
  · exact ⟨_, clockEdge_runnable hp hr⟩
  · exact ⟨_, exec_runnable _ hp hr⟩
  · rw [pollEdge, exec_runnable _ hp hr]
    exact ⟨_, rfl⟩

end Sys2Proof.Laws
end

