-- ==== Sys2Proof/Laws/Block.lean ====
section
/-! SUPPORT. What the block's edge can do: an idle block takes the access and stands still otherwise; a busy block takes of
an access only OVR and the W1C of DONE, and runs its phase. -/

namespace Sys2Proof.Laws

open Sys2Proof.Machine

theorem blockEdge_idle {p : Params} {line : Bool} {host : Frx → Frx} {f : Frx} (h : f.seq = .idle) :
    blockEdge p line host f = { host f with sync := shiftSync p line f.sync } := by
  simp [blockEdge, h]

theorem blockEdge_busy {p : Params} {line : Bool} {host : Frx → Frx} {f : Frx} (h : f.seq ≠ .idle) :
    blockEdge p line host f = { sequencer p (din p line f) (host f) with sync := shiftSync p line f.sync } := by
  simp [blockEdge, h]

@[simp] theorem blockEdge_sync (p : Params) (line : Bool) (host : Frx → Frx) (f : Frx) :
    (blockEdge p line host f).sync = shiftSync p line f.sync := rfl

theorem writeWhenIdle_idle {effect : Frx → Frx} {f : Frx} (h : f.seq = .idle) : writeWhenIdle effect f = effect f :=
  if_pos h

theorem writeWhenIdle_busy {effect : Frx → Frx} {f : Frx} (h : f.seq ≠ .idle) :
    writeWhenIdle effect f = { f with ovr := true } :=
  if_neg h

/-- All an access can do to a busy block (R65 to R67). -/
theorem accessEffect_busy (p : Params) (i : Instr) {f : Frx} (h : f.seq ≠ .idle) :
    ∃ d o, accessEffect p i f = { f with done := d, ovr := o } ∧ (d = true → f.done = true) := by
  have same : f = { f with done := f.done, ovr := f.ovr } := rfl
  cases i <;> simp only [accessEffect]
  case wrStatus v => exact ⟨_, _, rfl, by simp +contextual⟩
  all_goals first
    | exact ⟨_, _, same, id⟩
    | exact ⟨f.done, true, by rw [writeWhenIdle_busy h], id⟩

/-- The three cases of a timed phase (R117). -/
theorem timed_cases (endAction : Frx → Frx) (f : Frx) :
    (1 < f.tmr ∧ timed endAction f = { f with tmr := f.tmr - 1 }) ∨
    (f.tmr = 1 ∧ timed endAction f = endAction f) ∨ (f.tmr = 0 ∧ timed endAction f = f) := by
  unfold timed
  split
  · exact .inl ⟨by assumption, rfl⟩
  · split
    · exact .inr (.inl ⟨by assumption, rfl⟩)
    · exact .inr (.inr ⟨by omega, rfl⟩)

/-- A block update that neither reads DONE and OVR nor writes them but for a completion, which sets DONE. -/
def FlagsApart (g : Frx → Frx) : Prop :=
  ∀ (f : Frx) (d o : Bool), f.seq ≠ .idle →
    g { f with done := d, ovr := o } = { g f with done := if (g f).seq = .idle then true else d, ovr := o }

theorem timed_flagsApart {e : Frx → Frx} (h : FlagsApart e) : FlagsApart (timed e) := by
  intro f d o hs
  unfold timed
  dsimp only
  split
  · simp
  · split
    · exact h f d o hs
    · simp

/-- The sequencer keeps DONE and OVR apart from all else it does (R66, R212). -/
theorem sequencer_flagsApart (p : Params) (level : Bool) : FlagsApart (sequencer p level) := by
  intro f d o hs
  unfold sequencer
  dsimp only
  split
  · exact absurd ‹_› hs
  · refine timed_flagsApart ?_ f d o hs
    intro f d o hs
    simp [pdLowEnd]; rfl
  · refine timed_flagsApart ?_ f d o hs
    intro f d o hs
    simp only [pdHoldEnd]
    split <;> simp <;> rfl
  · refine timed_flagsApart ?_ f d o hs
    intro f d o hs
    simp only [puSettleEnd]
    split <;> simp <;> rfl
  · unfold waitReady
    dsimp only
    split
    · simp; rfl
    · split
      · simp; rfl
      · simp
  · have : sampleBit p level { f with done := d, ovr := o } = { sampleBit p level f with done := d, ovr := o } := by
      unfold sampleBit; dsimp only; split <;> rfl
    rw [this]
    refine timed_flagsApart ?_ _ d o ?_
    · intro f d o hs
      simp [bitHighEnd]; rfl
    · unfold sampleBit; split <;> simpa using hs
  · refine timed_flagsApart ?_ f d o hs
    intro f d o hs
    simp only [bitLowEnd]
    split <;> simp <;> rfl
  · refine timed_flagsApart ?_ f d o hs
    intro f d o hs
    simp [pulseHighEnd]; rfl
  · refine timed_flagsApart ?_ f d o hs
    intro f d o hs
    simp only [pulseLowEnd]
    split
    · simp; rfl
    · simp only [frameEnd, recordSample]
      split <;> simp <;> rfl

/-- A busy block at an edge, whatever the host does at it: the sequencer's step, the synchronizer's shift, and the two flags the
host may have written, DONE being set by a completion all the same. -/
theorem blockEdge_access_busy (p : Params) (line : Bool) (i : Instr) {f : Frx} (h : f.seq ≠ .idle) :
    ∃ d o, blockEdge p line (accessEffect p i) f =
      { sequencer p (din p line f) f with
        done := if (sequencer p (din p line f) f).seq = .idle then true else d
        ovr := o
        sync := shiftSync p line f.sync } := by
  obtain ⟨d, o, he, -⟩ := accessEffect_busy p i h
  refine ⟨d, o, ?_⟩
  rw [blockEdge_busy h, he, sequencer_flagsApart p _ f d o h]

/-- The chain keeps S stages, however long it was (R111). -/
theorem shiftSync_length {p : Params} {line : Bool} {chain : List Bool} (h : chain.length = p.syncStages) :
    (shiftSync p line chain).length = p.syncStages := by
  simp [shiftSync, h]

/-! The start steps that look at PWR, in each power state. -/

theorem startAcquire_active {f : Frx} (h : f.pwr = .active) : startAcquire f = startFrame false (accept .acquire f) := by
  unfold startAcquire
  rw [h]

theorem startAcquire_poweredDown {f : Frx} (h : f.pwr = .poweredDown) : startAcquire f = completeAtOnce .notActive f := by
  unfold startAcquire
  rw [h]

theorem startSetGain_active {f : Frx} (g : GainChannel) (h : f.pwr = .active) :
    startSetGain g f = startFrame true (accept .setGain { f with gain := g }) := by
  unfold startSetGain
  rw [h]

theorem startSetGain_poweredDown {f : Frx} (g : GainChannel) (h : f.pwr = .poweredDown) :
    startSetGain g f = completeAtOnce .ok { f with gain := g } := by
  unfold startSetGain
  rw [h]

theorem startSetGainCode_of_gain {gsel : BitVec 2} {g : GainChannel} (h : gainOfCode gsel = some g) (f : Frx) :
    startSetGainCode gsel f = startSetGain g f := by
  unfold startSetGainCode
  rw [h]

theorem startPowerDown_active {f : Frx} (p : Params) (h : f.pwr = .active) :
    startPowerDown p f = setSck false (enter .pdLow p.tLow (accept .powerDown f)) := by
  unfold startPowerDown
  rw [h]

theorem startPowerDown_poweredDown {f : Frx} (p : Params) (h : f.pwr = .poweredDown) :
    startPowerDown p f = completeAtOnce .ok f := by
  unfold startPowerDown
  rw [h]

theorem startResetDev_active {f : Frx} (p : Params) (h : f.pwr = .active) :
    startResetDev p f = setSck false (enter .pdLow p.tLow (accept .resetDev f)) := by
  unfold startResetDev
  rw [h]

theorem startResetDev_poweredDown {f : Frx} (p : Params) (h : f.pwr = .poweredDown) :
    startResetDev p f = setSck false (enter .puSettle p.tPu (accept .resetDev f)) := by
  unfold startResetDev
  rw [h]

end Sys2Proof.Laws
end

