-- ==== Sys2Proof/Laws/Device.lean ====
section
/-! SUPPORT. What one edge can do to the device: which fields each part of the edge touches, and the cases of the whole. -/

namespace Sys2Proof.Laws

open Sys2Proof.Machine

/-- An open window that does not close counts down; no window stays none. -/
theorem windowTick_of_ne_one {draw : Nat} {d : Device} (h : d.window ≠ 1) :
    windowTick draw d = { d with window := d.window - 1 } := by
  obtain ⟨on, dgain, avail, w, c, hh, window, shown, lag, stray, line⟩ := d
  rcases window with _ | _ | n
  · rfl
  · exact absurd rfl h
  · rfl

/-- The closing of a window (R129). -/
theorem windowTick_of_one {draw : Nat} {d : Device} (h : d.window = 1) :
    windowTick draw d =
      { d with window := 0, dgain := gainAfterFrame draw d.c, c := 0, lag := [], shown := .unknown } := by
  simp [windowTick, h]

@[simp] theorem windowTick_h (draw : Nat) (d : Device) : (windowTick draw d).h = d.h := by
  unfold windowTick; split <;> [rfl; (split <;> rfl)]
@[simp] theorem windowTick_w (draw : Nat) (d : Device) : (windowTick draw d).w = d.w := by
  unfold windowTick; split <;> [rfl; (split <;> rfl)]
@[simp] theorem windowTick_on (draw : Nat) (d : Device) : (windowTick draw d).on = d.on := by
  unfold windowTick; split <;> [rfl; (split <;> rfl)]
@[simp] theorem windowTick_avail (draw : Nat) (d : Device) : (windowTick draw d).avail = d.avail := by
  unfold windowTick; split <;> [rfl; (split <;> rfl)]
@[simp] theorem windowTick_stray (draw : Nat) (d : Device) : (windowTick draw d).stray = d.stray := by
  unfold windowTick; split <;> [rfl; (split <;> rfl)]

@[simp] theorem risingEdge_h (p : Params) (draw : Nat) (d : Device) : (risingEdge p draw d).h = d.h := by
  unfold risingEdge; split <;> [rfl; (split <;> rfl)]
@[simp] theorem risingEdge_on (p : Params) (draw : Nat) (d : Device) : (risingEdge p draw d).on = d.on := by
  unfold risingEdge; split <;> [rfl; (split <;> rfl)]
@[simp] theorem risingEdge_w (p : Params) (draw : Nat) (d : Device) : (risingEdge p draw d).w = d.w := by
  unfold risingEdge; split <;> [rfl; (split <;> rfl)]

/-- A rising edge that begins a frame (R127). -/
theorem risingEdge_begins {p : Params} {draw : Nat} {d : Device} (hc : d.c = 0) (ha : d.avail = true) :
    risingEdge p draw d =
      { d with
        avail := false, c := 1, window := p.tFrameMax, shown := .unknown, lag := [(p.tDv, sourceAfter 1)]
        stray := d.stray - 1 } := by
  simp [risingEdge, hc, ha, showLater]

/-- A rising edge inside a frame counts, and delays what it puts on the line (R127, R128). -/
theorem risingEdge_inFrame {p : Params} {draw : Nat} {d : Device} (hc : d.c ≠ 0) :
    risingEdge p draw d =
      { d with c := d.c + 1, stray := d.stray - 1, lag := d.lag ++ [(p.tDv, sourceAfter (d.c + 1))] } := by
  simp [risingEdge, hc, showLater]

/-- A rising edge with no frame open and no conversion (R127). -/
theorem risingEdge_stray {p : Params} {draw : Nat} {d : Device} (hc : d.c = 0) (ha : d.avail = false) :
    risingEdge p draw d = { d with dgain := Config.drawGain draw, stray := 24 } := by
  simp [risingEdge, hc, ha]

/-- A conversion that comes available comes outside a frame (R126, R128). -/
theorem offerConversion_cases (draw : Nat) (d : Device) :
    offerConversion draw d = d ∨
      d.avail = false ∧ d.c = 0 ∧ offerConversion draw d = { d with avail := true, w := Config.drawBits draw } := by
  unfold offerConversion
  split
  · rename_i h
    simp only [Bool.and_eq_true, Bool.not_eq_true', beq_iff_eq] at h
    exact .inr ⟨h.1.1, h.1.2, rfl⟩
  · exact .inl rfl

/-- The bookkeeping fields that settling the due line sources leaves alone. -/
@[simp] theorem lagSettle_c (d : Device) : (lagSettle d).c = d.c := rfl
@[simp] theorem lagSettle_h (d : Device) : (lagSettle d).h = d.h := rfl
@[simp] theorem lagSettle_on (d : Device) : (lagSettle d).on = d.on := rfl
@[simp] theorem lagSettle_window (d : Device) : (lagSettle d).window = d.window := rfl
@[simp] theorem lagSettle_avail (d : Device) : (lagSettle d).avail = d.avail := rfl
@[simp] theorem lagSettle_dgain (d : Device) : (lagSettle d).dgain = d.dgain := rfl
@[simp] theorem lagSettle_stray (d : Device) : (lagSettle d).stray = d.stray := rfl
@[simp] theorem lagSettle_w (d : Device) : (lagSettle d).w = d.w := rfl
@[simp] theorem lagTick_c (d : Device) : (lagTick d).c = d.c := rfl
@[simp] theorem lagTick_h (d : Device) : (lagTick d).h = d.h := rfl
@[simp] theorem lagTick_on (d : Device) : (lagTick d).on = d.on := rfl
@[simp] theorem lagTick_window (d : Device) : (lagTick d).window = d.window := rfl
@[simp] theorem lagTick_avail (d : Device) : (lagTick d).avail = d.avail := rfl
@[simp] theorem lagTick_dgain (d : Device) : (lagTick d).dgain = d.dgain := rfl
@[simp] theorem lagTick_stray (d : Device) : (lagTick d).stray = d.stray := rfl
@[simp] theorem lagTick_w (d : Device) : (lagTick d).w = d.w := rfl

/-- A device that is on powers down exactly when `sck` has been high for `T_DEV_PD` cycles (R130). -/
theorem deviceOn_powersDown {p : Params} {draw : Nat} {rise : Bool} {d : Device} (h : p.tDevPd ≤ d.h) :
    ∃ e : Device, e.h = d.h ∧ e.w = d.w ∧ deviceOn p draw rise d = devicePowersDown e := by
  refine ⟨lagSettle (if rise then risingEdge p draw (lagTick (windowTick draw d)) else lagTick (windowTick draw d)), ?_, ?_, ?_⟩
  · split <;> simp
  · split <;> simp
  · unfold deviceOn
    dsimp only
    rw [if_pos]
    split <;> simpa using h

/-- A device that is on and stays on: the window, the delays and the rising edge, and then perhaps a conversion. -/
theorem deviceOn_staysOn {p : Params} {draw : Nat} {rise : Bool} {d : Device} (h : d.h < p.tDevPd) :
    deviceOn p draw rise d =
      offerConversion draw
        (lagSettle (if rise then risingEdge p draw (lagTick (windowTick draw d)) else lagTick (windowTick draw d))) := by
  unfold deviceOn
  dsimp only
  rw [if_neg]
  split <;> simpa using h

/-- The edge of a device that is on; its line follows from the state it reaches. -/
theorem deviceEdge_on {p : Params} {draw : Nat} {was now : Bool} {d : Device} (h : d.on = true) :
    deviceEdge p draw was now d =
      { deviceOn p draw (!was && now) { d with h := if now then d.h + 1 else 0 } with
        line := lineLevel p draw (deviceOn p draw (!was && now) { d with h := if now then d.h + 1 else 0 }) } := by
  unfold deviceEdge
  dsimp only
  rw [if_pos h]

/-- The edge of a device that is off: a falling edge wakes it, and no other does (R130). -/
theorem deviceEdge_off {p : Params} {draw : Nat} {was now : Bool} {d : Device} (h : d.on = false) :
    ∃ e : Device, deviceEdge p draw was now d = { e with line := lineLevel p draw e } ∧
      e = if was && !now then devicePowersUp { d with h := 0 } else { d with h := if now then d.h + 1 else 0 } := by
  refine ⟨_, rfl, ?_⟩
  simp only [h]
  cases was <;> cases now <;> rfl

/-! The level on the line, by what the device is at (R126 to R128), and the device at a reset edge. -/

theorem lineLevel_outsideFrame {p : Params} {draw : Nat} {d : Device} (hon : d.on = true) (hs : d.stray = 0) (hc : d.c = 0) :
    lineLevel p draw d = if d.avail then p.readyLevel else !p.readyLevel := by
  simp [lineLevel, hon, hs, hc]

theorem lineLevel_inFrame {p : Params} {draw : Nat} {d : Device} (hon : d.on = true) (hs : d.stray = 0) (hc : d.c ≠ 0) :
    lineLevel p draw d =
      match d.shown with
      | .unknown => Config.drawLine draw
      | .bit n => d.w[n.val]
      | .notReady => !p.readyLevel := by
  cases hd : d.shown <;> simp [lineLevel, hon, hs, hc, hd]

theorem sourceAfter_bit (n : Fin 24) : sourceAfter (n.val + 1) = .bit n := by
  simp [sourceAfter]

theorem sourceAfter_notReady {c : Nat} (h : 25 ≤ c) : sourceAfter c = .notReady := by
  have h0 : c ≠ 0 := by omega
  have h1 : ¬ c - 1 < 24 := by omega
  simp [sourceAfter, h0, h1]

/-- Every device the model makes drives the line that follows from its other fields. -/
theorem deviceEdge_line (p : Params) (draw : Nat) (was now : Bool) (d : Device) :
    (deviceEdge p draw was now d).line = lineLevel p draw (deviceEdge p draw was now d) := rfl

theorem drawn_line (p : Params) (draw stray : Nat) :
    (Device.drawn p draw stray).line = lineLevel p draw (Device.drawn p draw stray) := rfl

theorem resetDevice_cases (s : State) :
    (resetHeld s = true ∨ s.frx.sckQ = true ∧ s.dev.on = false) ∧
        resetDevice s = deviceEdge s.par s.draws s.frx.sckQ false s.dev ∨
    (resetHeld s = false ∧ (s.frx.sckQ = true → s.dev.on = true)) ∧
        resetDevice s = Device.drawn s.par s.draws (if s.resetSeen then s.dev.stray else 0) := by
  unfold resetDevice
  cases resetHeld s <;> cases s.frx.sckQ <;> cases s.dev.on <;> simp

end Sys2Proof.Laws
end

