-- ==== Sys2Proof/Laws/PerInstr.lean ====
section
/-! SUPPORT. Statements about every instruction as syntax, one lemma per constructor: the access pattern `w a2 a1 a0` its
encoding puts on the port (30_encoding.md R99). -/

namespace Sys2Proof.Laws.PortPattern

/-- The pattern of a row of R99; every command word is the data of a write to index 1. -/
def rowPattern : Instr → BitVec 4
  | .nop | .acquire | .setGain _ | .badGain | .powerDown | .powerUp | .resetDev | .illegalOp6 _ | .illegalOp7 _ => 0b1001
  | .rdCfg => 0b0000
  | .rdCmd => 0b0001
  | .rdStatus => 0b0010
  | .rdData => 0b0011
  | .rdRaw => 0b0100
  | .rdTimeout => 0b0101
  | .rdRsvd6 => 0b0110
  | .rdId => 0b0111
  | .wrCfg _ => 0b1000
  | .wrCmd _ => 0b1001
  | .wrStatus _ => 0b1010
  | .wrData _ => 0b1011
  | .wrRaw _ => 0b1100
  | .wrTimeout _ => 0b1101
  | .wrRsvd6 _ => 0b1110
  | .wrId _ => 0b1111

/-- The encoding of an instruction drives (`wr_en`, `addr`) as its row says. -/
def Statement (i : Instr) : Prop :=
  BitVec.ofBool (portSignals (encode i)).wrEn ++ (portSignals (encode i)).addr = rowPattern i

/-- A command word is a write to index 1, whatever the word. -/
theorem of_commandWord (w : Word) :
    BitVec.ofBool (portSignals (.cmd32 w)).wrEn ++ (portSignals (.cmd32 w)).addr = 0b1001 := by
  change BitVec.ofBool true ++ (1 : BitVec 3) = 0b1001
  decide

/-- A bus access drives its pattern, whatever the write data. -/
theorem of_busAccess (pattern : BitVec 4) (v : Word) :
    BitVec.ofBool (portSignals (.busop pattern v)).wrEn ++ (portSignals (.busop pattern v)).addr = pattern := by
  change BitVec.ofBool (pattern.getLsbD 3) ++ pattern.extractLsb' 0 3 = pattern
  revert pattern
  decide

theorem nop : Statement .nop := of_commandWord _
theorem acquire : Statement .acquire := of_commandWord _
theorem setGain (gsel : BitVec 2) : Statement (.setGain gsel) := of_commandWord _
theorem badGain : Statement .badGain := of_commandWord _
theorem powerDown : Statement .powerDown := of_commandWord _
theorem powerUp : Statement .powerUp := of_commandWord _
theorem resetDev : Statement .resetDev := of_commandWord _
theorem illegalOp6 (rest : BitVec 29) : Statement (.illegalOp6 rest) := of_commandWord _
theorem illegalOp7 (rest : BitVec 29) : Statement (.illegalOp7 rest) := of_commandWord _
theorem rdCfg : Statement .rdCfg := of_busAccess _ _
theorem rdCmd : Statement .rdCmd := of_busAccess _ _
theorem rdStatus : Statement .rdStatus := of_busAccess _ _
theorem rdData : Statement .rdData := of_busAccess _ _
theorem rdRaw : Statement .rdRaw := of_busAccess _ _
theorem rdTimeout : Statement .rdTimeout := of_busAccess _ _
theorem rdRsvd6 : Statement .rdRsvd6 := of_busAccess _ _
theorem rdId : Statement .rdId := of_busAccess _ _
theorem wrCfg (v : Word) : Statement (.wrCfg v) := of_busAccess _ _
theorem wrCmd (v : Word) : Statement (.wrCmd v) := of_busAccess _ _
theorem wrStatus (v : Word) : Statement (.wrStatus v) := of_busAccess _ _
theorem wrData (v : Word) : Statement (.wrData v) := of_busAccess _ _
theorem wrRaw (v : Word) : Statement (.wrRaw v) := of_busAccess _ _
theorem wrTimeout (v : Word) : Statement (.wrTimeout v) := of_busAccess _ _
theorem wrRsvd6 (v : Word) : Statement (.wrRsvd6 v) := of_busAccess _ _
theorem wrId (v : Word) : Statement (.wrId v) := of_busAccess _ _

end Sys2Proof.Laws.PortPattern
end

