-- ==== Sys2Proof/Laws/Words.lean ====
section
/-! SUPPORT. The coded fields: gain codes, error codes, and the widenings of DECODE. -/

namespace Sys2Proof.Laws

open Sys2Proof.Machine

@[simp] theorem gainOfCode_gainCode (g : GainChannel) : gainOfCode (gainCode g) = some g := by cases g <;> rfl

theorem gainOfCode_eq_none {code : BitVec 2} : gainOfCode code = none ↔ code = 3 := by
  revert code; decide

theorem gainCode_ne_three (g : GainChannel) : gainCode g ≠ 3 := by cases g <;> decide

theorem errCode_le_four (e : Err) : (errCode e).toNat ≤ 4 := by cases e <;> decide

theorem pulses_pos (g : GainChannel) : 1 ≤ pulses g := by cases g <;> decide

theorem pulses_le_three (g : GainChannel) : pulses g ≤ 3 := by cases g <;> decide

@[simp] theorem regAt_indexOf (r : Reg) : Decode.regAt (Decode.indexOf r) = r := by cases r <;> rfl

@[simp] theorem indexOf_regAt (i : BitVec 3) : Decode.indexOf (Decode.regAt i) = i := by
  revert i; decide

/-! The fields of the word a STATUS read returns (R24). -/

section status
variable (d : Bool) (f : Frx)

theorem statusWord_busy : (statusWord d f).getLsbD 0 = busy f := by
  simp only [statusWord, BitVec.getLsbD_append, BitVec.getLsbD_ofBool]
  simp

theorem statusWord_done : (statusWord d f).getLsbD 1 = f.done := by
  simp only [statusWord, BitVec.getLsbD_append, BitVec.getLsbD_ofBool]
  simp

theorem statusWord_pwr : (statusWord d f).getLsbD 5 = powerBit f.pwr := by
  simp only [statusWord, BitVec.getLsbD_append, BitVec.getLsbD_ofBool]
  simp

theorem statusWord_valid : (statusWord d f).getLsbD 12 = f.valid := by
  simp only [statusWord, BitVec.getLsbD_append, BitVec.getLsbD_ofBool]
  simp

theorem statusWord_ovr : (statusWord d f).getLsbD 13 = f.ovr := by
  simp only [statusWord, BitVec.getLsbD_append, BitVec.getLsbD_ofBool]
  simp

theorem statusWord_din : (statusWord d f).getLsbD 14 = d := by
  simp only [statusWord, BitVec.getLsbD_append, BitVec.getLsbD_ofBool]
  simp

theorem statusWord_sck : (statusWord d f).getLsbD 15 = f.sckQ := by
  simp only [statusWord, BitVec.getLsbD_append, BitVec.getLsbD_ofBool]
  simp

theorem statusWord_err : (statusWord d f).extractLsb' 2 3 = errCode f.err := by
  apply BitVec.eq_of_getLsbD_eq
  intro i hi
  simp only [statusWord, BitVec.getLsbD_extractLsb', BitVec.getLsbD_append, BitVec.getLsbD_ofBool]
  interval_cases i <;> simp

theorem statusWord_gain : (statusWord d f).extractLsb' 6 2 = gainCode f.gain := by
  apply BitVec.eq_of_getLsbD_eq
  intro i hi
  simp only [statusWord, BitVec.getLsbD_extractLsb', BitVec.getLsbD_append, BitVec.getLsbD_ofBool]
  interval_cases i <;> simp

theorem statusWord_devg : (statusWord d f).extractLsb' 8 2 = gainTagCode f.devg := by
  apply BitVec.eq_of_getLsbD_eq
  intro i hi
  simp only [statusWord, BitVec.getLsbD_extractLsb', BitVec.getLsbD_append, BitVec.getLsbD_ofBool]
  interval_cases i <;> simp

theorem statusWord_dtag : (statusWord d f).extractLsb' 10 2 = gainTagCode f.dtag := by
  apply BitVec.eq_of_getLsbD_eq
  intro i hi
  simp only [statusWord, BitVec.getLsbD_extractLsb', BitVec.getLsbD_append, BitVec.getLsbD_ofBool]
  interval_cases i <;> simp

end status

end Sys2Proof.Laws
end

