-- ==== Sys2Proof/Tests/Slice0.lean ====
section
/-! SUPPORT. The author's own tests: words and single steps whose expected values are the spec's (95_test_vectors.md, each
cited), and for each obligation with hypotheses a state that meets them. -/

namespace Sys2Proof.Tests

open Sys2Proof.Machine Sys2Proof.Safety Sys2Proof.Laws

/-! ## Well-formedness -/

theorem test_setGain_code3_illFormed : Instr.wellFormed (.setGain 3) = false := by decide
theorem test_setGain_codes_wellFormed : ∀ g : BitVec 2, g ≠ 3 → Instr.wellFormed (.setGain g) = true := by decide

/-! ## Decoding: a word of every row, written out from 30_encoding.md R91, R92, R99 -/

theorem test_decode_commands :
    [0b000000#32, 0b000001#32, 0b000010#32, 0b010010#32, 0b100010#32, 0b110010#32, 0b000011#32, 0b000100#32, 0b000101#32].map
      (fun w => decode (.cmd32 w)) =
    [.nop, .acquire, .setGain 0, .setGain 1, .setGain 2, .badGain, .powerDown, .powerUp, .resetDev] := by decide

theorem test_decode_illegalOps :
    decode (.cmd32 0x00000006) = .illegalOp6 0 ∧ decode (.cmd32 0x00000036) = .illegalOp6 6 ∧
    decode (.cmd32 0x00000007) = .illegalOp7 0 ∧ decode (.cmd32 0xFFFFFFFF) = .illegalOp7 0x1FFFFFFF := by decide

theorem test_decode_reads :
    [0b0000#4, 0b0001#4, 0b0010#4, 0b0011#4, 0b0100#4, 0b0101#4, 0b0110#4, 0b0111#4].map (fun p => decode (.busop p 0)) =
    [.rdCfg, .rdCmd, .rdStatus, .rdData, .rdRaw, .rdTimeout, .rdRsvd6, .rdId] := by decide

theorem test_decode_writes :
    [0b1000#4, 0b1001#4, 0b1010#4, 0b1011#4, 0b1100#4, 0b1101#4, 0b1110#4, 0b1111#4].map
      (fun p => decode (.busop p 0x80000001)) =
    [.wrCfg 0x80000001, .wrCmd 0x80000001, .wrStatus 0x80000001, .wrData 0x80000001, .wrRaw 0x80000001,
      .wrTimeout 0x80000001, .wrRsvd6 0x80000001, .wrId 0x80000001] := by decide

/-- R99: no two CMD rows overlap, but BADGAIN's and SET_GAIN's. -/
theorem test_cmdRows_disjoint :
    (Decode.cmdRows.filter fun r => r.mnemonic != "BADGAIN").Pairwise
      fun a b => a.pattern &&& b.mask ≠ b.pattern &&& a.mask := by decide

/-- R90: the verdicts of V1. -/
theorem test_verdicts_V1_legal :
    [0x00#32, 0x01, 0x02, 0x12, 0x22, 0x32, 0x03, 0x04, 0x05].map verdict =
      [.nop, .acquire, .setGain .g128, .setGain .g64, .setGain .g32, .badGain, .powerDown, .powerUp, .resetDev] := by decide

/-- V1, the reserved bits 3, 6 and 31 among them. -/
theorem test_verdicts_V1_illegal :
    [0x06#32, 0x07, 0x36, 0x08, 0x0A, 0x11, 0x13, 0x40, 0x72, 0x80000001, 0xFFFFFFFF].map verdict =
      List.replicate 11 .illegal := by decide

theorem test_tableWords_layout :
    decodeTableWord 4 0x9 = some (.wrCmd 0) ∧ decodeTableWord 40 0x123456780D = some (.wrTimeout 0x12345678) ∧
    decodeTableWord 16 0 = none ∧ decodeTableWord 32 0x100000000 = none := by decide

/-! ## Deserializer and gain table -/

/-- The serial bits of a word sent most significant bit first. -/
def serial (w : Nat) : SerialBits := Vector.ofFn fun i => w.testBit (23 - i.val)

/-- V2, a row for each of the four settings of the flags. -/
theorem test_assemble_V2 :
    assemble (serial 0x123456) .msbFirst .msbFirst = 0x123456 ∧ assemble (serial 0x123456) .lsbFirst .msbFirst = 0x482C6A ∧
    assemble (serial 0x123456) .msbFirst .lsbFirst = 0x563412 ∧ assemble (serial 0x123456) .lsbFirst .lsbFirst = 0x6A2C48 ∧
    assemble (serial 0x800001) .lsbFirst .msbFirst = 0x010080 ∧ assemble (serial 0x000001) .msbFirst .lsbFirst = 0x010000 := by
  decide

/-- V3, S1, S2. -/
theorem test_decodeFrame_V3 :
    dataWord 0x000001 = 0x00000001 ∧ dataWord 0x7FFFFF = 0x007FFFFF ∧ dataWord 0x800000 = 0xFF800000 ∧
    dataWord 0x800001 = 0xFF800001 ∧ dataWord 0xFFFFFE = 0xFFFFFFFE ∧ rawWord 0x800000 = 0x00800000 := by decide

/-- R129: the gain a frame programs, V4.1. -/
theorem test_gainAfterFrame_V4 (draw : Nat) :
    gainAfterFrame draw 25 = .g128 ∧ gainAfterFrame draw 26 = .g32 ∧ gainAfterFrame draw 27 = .g64 := by
  exact ⟨rfl, rfl, rfl⟩

/-! ## Parameter sets, reset, host programs -/

theorem test_parameterSets : paramsLegal Config.setA = true ∧ paramsLegal Config.setB = true := by decide

/-- Each constraint of R6 refuses a set that misses it by one. -/
theorem test_parameters_boundaries :
    paramsLegal { Config.setB with tSample := 2 } = false ∧ paramsLegal { Config.setB with tSample := 4 } = false ∧
    paramsLegal { Config.setB with tDevPd := 3 } = false ∧ paramsLegal { Config.setB with tPd := 3 } = false ∧
    paramsLegal { Config.setB with tFrameMax := 134 } = false ∧ paramsLegal { Config.setB with tPu := 1 } = false ∧
    paramsLegal { Config.setA with tLow := 0 } = false := by decide

/-- V9: STATUS after reset is 0x00004F01, with the line not ready. -/
theorem test_reset_status : statusWord true (Frx.reset Config.setA) = 0x00004F01 := by decide

/-- R101, R103: the lines of P1. -/
theorem test_assembleProgram :
    assembleProgram [.waitDone, .w1c true true, .cmd .acquire none] =
      some [.poll .busy 0, .access (.busop 0b0010 0), .access (.busop 0b1010 0x00002002), .access (.cmd32 1)] ∧
    assembleProgram [.cmd .setGain (some 16)] = none ∧ assembleProgram [.cmd .nop (some 128)] = none := by decide

/-! ## Single steps, from the state after INIT of the spec's programs (set A) -/

/-- A device that is on, with nothing to offer, its line at 1. -/
def device : Device :=
  { on := true, dgain := .g128, avail := false, w := serial 0, c := 0, h := 0, window := 0, shown := .unknown, lag := [],
    stray := 0, line := true }

/-- After INIT: STATUS = 0x00004C02 (P1 edge 109). -/
def idle : State :=
  { par := Config.setA, resetSeen := true,
    frx := { Frx.reset Config.setA with seq := .idle, op := .none, tmr := 1, done := true, devg := some .g128 },
    dev := device, port := [], lastRead := 0, draws := 100 }

/-- After POWER_DOWN of P3: STATUS = 0x0000CC62 (edge 234), GAIN = 1. -/
def down : State :=
  { idle with
    frx := { idle.frx with pwr := .poweredDown, sckQ := true, gain := .g64 }
    dev := { device with on := false, h := 4 } }

/-- A command running, in the given phase. -/
def running (seq : Phase) (tmr : Nat) (op : Op) : State :=
  { idle with frx := { idle.frx with seq := seq, tmr := tmr, op := op, done := false, sckQ := clockLevel .active seq } }

/-- The register `r` as the host would read it after the instruction. -/
def after (i : Instr) (s : State) (r : Reg) : Option Word :=
  match exec i s with
  | .next t => some (readReg t.par true t.frx r)
  | .fault _ => none
  | .refused _ => none

/-- What the instruction reads. -/
def got (i : Instr) (s : State) : Option Word :=
  match exec i s with
  | .next t => some t.lastRead
  | .fault _ => none
  | .refused _ => none

theorem test_rdStatus_idle : got .rdStatus idle = some 0x00004C02 := by decide
theorem test_rdStatus_down : got .rdStatus down = some 0x0000CC62 := by decide
theorem test_rdId : got .rdId idle = some 0x46525801 := by decide
theorem test_rdCmd_rdRsvd6 : got .rdCmd idle = some 0 ∧ got .rdRsvd6 idle = some 0 := by decide
theorem test_rdCfg : got .rdCfg { idle with frx := { idle.frx with byteord := .lsbFirst } } = some 2 := by decide
theorem test_rdData_rdRaw :
    got .rdData { idle with frx := { idle.frx with data := 0xFF800000 } } = some 0xFF800000 ∧
    got .rdRaw { idle with frx := { idle.frx with raw := 0x00800000 } } = some 0x00800000 := by decide
theorem test_rdTimeout : got .rdTimeout idle = some 16 := by decide

/-- V7. -/
theorem test_wrCfg : after (.wrCfg 0xFFFFFFFF) idle .cfg = some 7 := by decide
theorem test_wrCfg_busy :
    after (.wrCfg 3) (running .wait 0 .acquire) .cfg = some 0 ∧
    after (.wrCfg 3) (running .wait 0 .acquire) .status = some 0x00006C01 := by decide
theorem test_wrTimeout : after (.wrTimeout 0xFFFFFFFF) idle .timeout = some 0xFFFFFFFF := by decide
/-- P4 edge 118. -/
theorem test_wrStatus :
    after (.wrStatus 0x2002) { idle with frx := { idle.frx with ovr := true, err := .timeout } } .status =
      some 0x00004C04 := by decide
/-- V7: a completion wins over a W1C of DONE at its edge. -/
theorem test_wrStatus_completion : after (.wrStatus 2) (running .puSettle 1 .powerUp) .status = some 0x00004C02 := by decide
theorem test_wrIgnored :
    after (.wrData 5) (running .wait 0 .acquire) .status = some 0x00004C01 ∧ after (.wrRaw 5) idle .raw = some 0 ∧
    after (.wrRsvd6 5) idle .rsvd6 = some 0 ∧ after (.wrId 5) idle .id = some 0x46525801 := by decide
/-- P5 edges 114 to 117. -/
theorem test_wrCmd_illegal :
    after (.wrCmd 0x11) idle .status = some 0x00004C0A ∧ after (.wrCmd 0xA) idle .status = some 0x00004C0A := by decide

/-- P5 edges 118, 119: a NOP clears the last error. -/
theorem test_nop : after .nop { idle with frx := { idle.frx with err := .illegal } } .status = some 0x00004C02 := by decide
/-- P8 edges 114, 115: dropped at the completion edge of POWER_DOWN. -/
theorem test_nop_atCompletion : after .nop (running .pdHold 1 .powerDown) .status = some 0x0000EC22 := by decide
/-- P3 edges 235, 236. -/
theorem test_acquire_down : after .acquire down .status = some 0x0000CC72 := by decide
theorem test_acquire : after .acquire idle .status = some 0x00004C01 := by decide
/-- P2 edge 111: GAIN = 2 at once. -/
theorem test_setGain : after (.setGain 2) idle .status = some 0x00004C81 := by decide
theorem test_setGain_down : after (.setGain 2) down .status = some 0x0000CCA2 := by decide
/-- P5 edges 112, 113. -/
theorem test_badGain : after .badGain idle .status = some 0x00004C0E := by decide
/-- P8 edges 109, 110. -/
theorem test_powerDown : after .powerDown idle .status = some 0x00004C01 := by decide
/-- V8: no edge on the line. -/
theorem test_powerDown_down : after .powerDown down .status = some 0x0000CC62 := by decide
/-- P3 edge 237: `sck` falls. -/
theorem test_powerUp : after .powerUp down .status = some 0x00004C61 := by decide
theorem test_resetDev_down : after .resetDev down .status = some 0x00004C61 := by decide
theorem test_resetDev : after .resetDev idle .status = some 0x00004C01 := by decide
/-- P5 edges 110, 111. -/
theorem test_illegalOps :
    after (.illegalOp6 0) idle .status = some 0x00004C0A ∧ after (.illegalOp7 6) idle .status = some 0x00004C0A := by decide

/-- V5: TIMEOUT = 1 makes exactly one test. -/
theorem test_timeout_one :
    after .rdStatus { running .wait 0 .acquire with frx := { (running .wait 0 .acquire).frx with timeout := 1 } } .status =
      some 0x00004C06 := by decide

/-- P8 edge 111: the end of PD_LOW raises `sck`. -/
theorem test_pdLow_end : after .rdStatus (running .pdLow 1 .powerDown) .status = some 0x0000CC01 := by decide

/-- V6, set A: the sample edge is the first of a pulse. -/
theorem test_sample_edge :
    (sequencer Config.setA true (running .bitHigh 2 .acquire).frx).sbits[0] = true ∧
    (sequencer Config.setA true (running .bitHigh 1 .acquire).frx).sbits[0] = false := by decide

/-- The frame end of P1: RAW, DATA, DTAG, VALID and the completion at one edge. -/
def lastPulse : State :=
  { running .pulseLow 1 .acquire with
    frx := { (running .pulseLow 1 .acquire).frx with sbits := serial 0x800000, n := 23, discard := false } }

theorem test_frameEnd :
    after .rdStatus lastPulse .status = some 0x00005002 ∧ after .rdStatus lastPulse .data = some 0xFF800000 ∧
    after .rdStatus lastPulse .raw = some 0x00800000 := by decide

/-- R127 with `T_DV` = 0 (set A): the first rising edge takes the conversion and shows its first bit. -/
theorem test_device_firstRise :
    let d := deviceEdge Config.setA 7 false true { device with avail := true, w := serial 0x400000, line := false }
    d.c = 1 ∧ d.avail = false ∧ d.window = 108 ∧ d.line = false := by decide

/-- R127, R128: the 24th rising edge puts the last bit on the line, the 25th NOT READY. -/
theorem test_sourceAfter :
    sourceAfter 1 = .bit 0 ∧ sourceAfter 24 = .bit 23 ∧ sourceAfter 25 = .notReady ∧ sourceAfter 27 = .notReady := by decide

/-- R231: a reset wakes the device of `down`. -/
theorem test_reset_wakes : (resetState down).dev.on = true ∧ (resetState down).dev.avail = false := by decide

/-- R130, set A: the third cycle of asserted clock powers the device down (P7, cycle 114). -/
theorem test_device_powersDown : (deviceEdge Config.setA 7 true true { device with h := 2, c := 26 }).on = false := by decide
theorem test_device_wakes : (deviceEdge Config.setA 7 true false { device with on := false, h := 9 }).on = true := by decide

/-! ## Witnesses: states and operands that meet the hypotheses of the obligations -/

theorem idle_runnable : Runnable idle := by decide
theorem down_runnable : Runnable down := by decide
theorem running_runnable (seq : Phase) (tmr : Nat) (op : Op) : Runnable (running seq tmr op) := by
  exact ⟨idle_runnable.1, rfl⟩

/-- The invariant from its parts, for states whose block and device are written out. -/
theorem inv_of {s : State} (h : Runnable s) (hd : s.dev.window = 0 ∧ s.dev.c = 0 ∧ s.dev.stray = 0)
    (hw : s.frx.raw = 0 ∧ s.frx.data = 0 ∧ s.frx.dtag = none) (hs : s.frx.sync.length = s.par.syncStages)
    (ht : phaseLength s.par s.frx.seq ≠ 0 → 1 ≤ s.frx.tmr ∧ s.frx.tmr ≤ phaseLength s.par s.frx.seq)
    (hc : s.frx.sckQ = clockLevel s.frx.pwr s.frx.seq) (ho : s.frx.op ∈ opsIn s.frx.seq)
    (hdis : framePhase s.frx.seq = true → (s.frx.discard = false ↔ s.frx.op = .acquire))
    (hp : framePhase s.frx.seq = true ∨ s.frx.seq = .pdLow ∨ s.frx.seq = .pdHold → s.frx.pwr = .active)
    (hf : s.frx.seq ≠ .idle → s.frx.done = false ∧ s.frx.err = .ok)
    (hb : s.frx.seq = .wait → s.frx.timeout ≠ 0 → s.frx.wcnt.toNat < s.frx.timeout.toNat)
    (hk : pulsePhase s.frx.seq = true → s.frx.k.val < pulses s.frx.gain ∧ s.frx.n = 23) : Inv s :=
  { runnable := h
    block :=
      { syncLength := hs, timer := ht, clock := hc, op := ho, discard := hdis, power := hp, flags := hf, bounded := hb,
        pulse := hk, words := ⟨0, by rw [hw.1]; decide, by rw [hw.2.1]; decide⟩, noSample := fun _ => hw }
    device :=
      { frameOpen := by simp [hd.1, hd.2.1], window := by simp [hd.1], stray := by simp [hd.2.2] } }

theorem idle_inv : Inv idle := by
  apply inv_of <;> decide

theorem down_inv : Inv down := by
  apply inv_of <;> decide

/-- A data pulse's first edge, in an ACQUIRE. -/
def firstPulse : State :=
  { running .bitHigh 2 .acquire with frx := { (running .bitHigh 2 .acquire).frx with discard := false } }

theorem firstPulse_inv : Inv firstPulse := by
  apply inv_of <;> decide

/-- The last edge of a RESET_DEV's PD_HOLD. -/
theorem holdEnd_inv : Inv (running .pdHold 1 .resetDev) := by
  apply inv_of <;> decide

/-- A WAIT whose ready test succeeds. -/
def readyWait : State :=
  { running .wait 0 .acquire with
    frx := { (running .wait 0 .acquire).frx with discard := false }
    dev := { device with avail := true, line := false } }

theorem readyWait_inv : Inv readyWait := by
  apply inv_of <;> decide

/-- A WAIT with the given bound and count, and the line not ready. -/
def waitWith (timeout wcnt : Word) : State :=
  { running .wait 0 .acquire with frx := { (running .wait 0 .acquire).frx with timeout := timeout, wcnt := wcnt } }

theorem witness_StepRunsTheNextInput :
    { idle with port := [.access (.cmd32 1), .rst] }.port = .access (.cmd32 1) :: [.rst] ∧
    { idle with port := [.idle] }.port = .idle :: [] ∧ idle.port = [] ∧ { idle with port := [.rst] }.port = .rst :: [] :=
  ⟨rfl, rfl, rfl, rfl⟩

/-- For every statement about a runnable state with `seq` = IDLE and its two power states. -/
theorem witness_idleStatements :
    Runnable idle ∧ idle.frx.seq = .idle ∧ idle.frx.pwr = .active ∧
    Runnable down ∧ down.frx.seq = .idle ∧ down.frx.pwr = .poweredDown := by decide

theorem witness_IdleEdgeOnlyShiftsTheSynchronizer : Runnable idle ∧ idle.frx.seq = .idle := by decide
theorem witness_DecodeOfEncodeIsTheInstruction :
    Instr.wellFormed (.setGain 2) = true ∧ Instr.wellFormed (.illegalOp7 0x1FFFFFFF) = true := by decide
theorem witness_EncodeOfDecodeDrivesTheSamePort : (portSignals (.busop 0b1101 5)).wrEn = true := by decide
theorem witness_ResetEdgeGivesEveryResetValue :
    paramsLegal idle.par = true ∧ paramsLegal Config.setB = true ∧ 1 ≤ Config.setB.syncStages := by decide
theorem witness_RunsBeginWithAResetEdge :
    let s := { idle with resetSeen := false }
    paramsLegal s.par = true ∧ s.resetSeen = false ∧ nextInput s ≠ .rst ∧ nextInput { s with port := [.rst] } = .rst := by
  decide
theorem witness_ReadsReturnTheRegisters : Runnable down := down_runnable
theorem witness_StatusReadShowsEveryField : Runnable down := down_runnable
theorem witness_ReadsChangeNothing :
    Runnable idle ∧ idle.frx.seq = .idle ∧ Runnable (running .wait 0 .acquire) := by decide
theorem witness_WrCfgTakesItsThreeBits : Runnable idle ∧ idle.frx.seq = .idle := by decide
theorem witness_WrTimeoutTakesTheValue : Runnable down ∧ down.frx.seq = .idle := by decide
theorem witness_WrStatusClearsWhatItNames : Runnable (running .puSettle 1 .init) := running_runnable _ _ _
theorem witness_WritesToReadOnlyRegistersDoNothing :
    Runnable (running .wait 0 .acquire) ∧ Instr.wrId 5 ∈ [Instr.wrData 5, .wrRaw 5, .wrRsvd6 5, .wrId 5] := by decide
theorem witness_BusyWritesAreDropped :
    Runnable (running .pdHold 1 .powerDown) ∧ (running .pdHold 1 .powerDown).frx.seq ≠ .idle ∧
    ∀ i ∈ [Instr.nop, .setGain 1, .illegalOp7 3, .wrCfg 7, .wrCmd 8, .wrTimeout 0],
      (portSignals (encode i)).wrEn = true ∧ (portSignals (encode i)).addr ∈ [(0 : BitVec 3), 1, 5] := by decide
/-- Both power states, and words at the edge of each range: bits 3, 6 and 31, OP 6 and 7, a GSEL outside SET_GAIN. -/
theorem witness_WrCmdTakesTheOutcomeOfItsWord :
    (Runnable idle ∧ idle.frx.seq = .idle ∧ idle.frx.pwr = .active ∧
      Runnable down ∧ down.frx.seq = .idle ∧ down.frx.pwr = .poweredDown) ∧
    (∀ v ∈ [0x06#32, 0x07], 6 ≤ v.toNat % 8) ∧ (∀ v ∈ [0x08#32, 0x40, 0x80000001], v &&& 0xFFFFFFC8 ≠ 0) ∧
    ((0x11#32).toNat % 8 ≠ 2 ∧ 0x11#32 &&& 0x00000030 ≠ 0) ∧
    ((0x00000022 : Word), GainChannel.g32) ∈
      [((0x00000002 : Word), GainChannel.g128), (0x00000012, .g64), (0x00000022, .g32)] :=
  ⟨witness_idleStatements, by simp, by simp, by decide, by decide⟩
theorem witness_NopCompletesAtOnce :
    Runnable down ∧ down.frx.seq = .idle ∧ Runnable (running .wait 0 .init) ∧ (running .wait 0 .init).frx.seq ≠ .idle := by
  decide
theorem witness_AcquireStartsASampleFrame :
    Runnable idle ∧ idle.frx.seq = .idle ∧ idle.frx.pwr = .active ∧
    Runnable down ∧ down.frx.seq = .idle ∧ down.frx.pwr = .poweredDown := witness_idleStatements
theorem witness_SetGainWritesGainAndDiscardsAFrame :
    (((0 : BitVec 2), GainChannel.g128) ∈ [((0 : BitVec 2), GainChannel.g128), (1, .g64), (2, .g32)] ∧
      ((2 : BitVec 2), GainChannel.g32) ∈ [((0 : BitVec 2), GainChannel.g128), (1, .g64), (2, .g32)]) ∧
    Runnable idle ∧ idle.frx.seq = .idle ∧ idle.frx.pwr = .active ∧
    Runnable down ∧ down.frx.seq = .idle ∧ down.frx.pwr = .poweredDown := ⟨by decide, witness_idleStatements⟩
theorem witness_BadGainCompletesAtOnce :
    Runnable idle ∧ idle.frx.seq = .idle ∧ Instr.badGain ∈ [Instr.badGain, .setGain 3] ∧
    Instr.setGain 3 ∈ [Instr.badGain, .setGain 3] := by decide
theorem witness_IllegalWordsCompleteAtOnce :
    Runnable idle ∧ idle.frx.seq = .idle ∧
    ∀ i ∈ [Instr.illegalOp6 0, .illegalOp7 0x1FFFFFFF, .wrCmd 0x40],
      (∃ rest, i = .illegalOp6 rest) ∨ (∃ rest, i = .illegalOp7 rest) ∨ ∃ v, verdict v = .illegal ∧ i = .wrCmd v := by
  refine ⟨idle_runnable, rfl, ?_⟩
  intro i hi
  simp only [List.mem_cons, List.not_mem_nil, or_false] at hi
  rcases hi with rfl | rfl | rfl
  · exact .inl ⟨_, rfl⟩
  · exact .inr (.inl ⟨_, rfl⟩)
  · exact .inr (.inr ⟨_, by decide, rfl⟩)
theorem witness_PowerDownStartsItsLowPhase :
    Runnable idle ∧ idle.frx.seq = .idle ∧ idle.frx.pwr = .active ∧
    Runnable down ∧ down.frx.seq = .idle ∧ down.frx.pwr = .poweredDown := witness_idleStatements
theorem witness_PowerUpStartsItsSettle : Runnable down ∧ down.frx.seq = .idle := by decide
theorem witness_ResetDevStartsTheHalfItNeeds :
    Runnable idle ∧ idle.frx.seq = .idle ∧ idle.frx.pwr = .active ∧
    Runnable down ∧ down.frx.seq = .idle ∧ down.frx.pwr = .poweredDown := witness_idleStatements

/-- A clause each: ready; the last test of TIMEOUT = 1 and of TIMEOUT = 4; an unbounded wait, and the third test of four. -/
theorem witness_ReadyTestHasThreeOutcomes :
    (Runnable readyWait ∧ readyWait.frx.seq = .wait ∧
      din readyWait.par readyWait.dev.line readyWait.frx = readyWait.par.readyLevel) ∧
    (∀ s ∈ [waitWith 1 0, waitWith 4 3],
      Runnable s ∧ s.frx.seq = .wait ∧ din s.par s.dev.line s.frx ≠ s.par.readyLevel ∧ s.frx.timeout ≠ 0 ∧
        s.frx.timeout.toNat ≤ s.frx.wcnt.toNat + 1) ∧
    (∀ s ∈ [waitWith 0 0xFFFFFFFF, waitWith 4 2],
      Runnable s ∧ s.frx.seq = .wait ∧ din s.par s.dev.line s.frx ≠ s.par.readyLevel ∧
        (s.frx.timeout = 0 ∨ s.frx.wcnt.toNat + 1 < s.frx.timeout.toNat)) := by decide

theorem witness_TimedPhasesCountDownAndSample :
    ∀ s ∈ [running .bitHigh 2 .acquire, running .puSettle 3 .init, running .pdHold 2 .resetDev],
      Runnable s ∧ s.frx.seq ∉ [Phase.idle, .wait] ∧ 1 < s.frx.tmr := by decide

/-- A clause each, `n` at 22 and at 23. -/
theorem witness_DataPulsesFollowEachOther :
    (Runnable (running .bitHigh 1 .acquire) ∧ (running .bitHigh 1 .acquire).frx.tmr = 1 ∧
      (running .bitHigh 1 .acquire).frx.seq = .bitHigh) ∧
    ∀ n : Fin 24, n = 22 ∨ n = 23 →
      let s := { running .bitLow 1 .acquire with frx := { (running .bitLow 1 .acquire).frx with n := n } }
      Runnable s ∧ s.frx.tmr = 1 ∧ s.frx.seq = .bitLow ∧ (s.frx.n.val < 23 ∨ s.frx.n.val = 23) := by decide

theorem witness_GainPulsesCountToP :
    Runnable (running .pulseHigh 1 .acquire) ∧ (running .pulseHigh 1 .acquire).frx.tmr = 1 ∧
    let s := { running .pulseLow 1 .acquire with frx := { (running .pulseLow 1 .acquire).frx with gain := .g64, k := 1 } }
    Runnable s ∧ s.frx.tmr = 1 ∧ s.frx.seq = .pulseLow ∧ s.frx.k.val + 1 < pulses s.frx.gain := by decide

theorem witness_FrameEndRecordsTheFrame :
    (Runnable lastPulse ∧ lastPulse.frx.seq = .pulseLow ∧ lastPulse.frx.tmr = 1 ∧
      pulses lastPulse.frx.gain ≤ lastPulse.frx.k.val + 1 ∧ lastPulse.frx.discard = false) ∧
    (running .pulseLow 1 .init).frx.discard = true := by decide

theorem witness_PowerDownPhasesEnd :
    Runnable (running .pdLow 1 .powerDown) ∧ (running .pdLow 1 .powerDown).frx.tmr = 1 ∧
    (running .pdHold 1 .resetDev).frx.seq = .pdHold ∧ (running .pdHold 1 .resetDev).frx.op = .resetDev ∧
    (running .pdHold 1 .powerDown).frx.op ≠ .resetDev := by decide

theorem witness_PowerUpSettleEnds :
    Runnable (running .puSettle 1 .init) ∧ (running .puSettle 1 .init).frx.tmr = 1 ∧
    (running .puSettle 1 .powerUp).frx.op ≠ .init ∧ (running .puSettle 1 .powerUp).frx.gain = .g128 := by decide

theorem witness_EveryStepKeepsTheInvariant : Inv readyWait ∧ ∃ t, step readyWait = .next t :=
  ⟨readyWait_inv, step_answers readyWait_inv.runnable.1 readyWait_inv.runnable.2⟩

theorem witness_OnlySetGainWritesGain :
    ∃ t, step { idle with port := [.access (.cmd32 0x22)] } = .next t ∧ t.frx.gain ≠ idle.frx.gain :=
  ⟨_, rfl, by decide⟩

theorem witness_OnlyASampleWritesTheSampleRegisters :
    ∃ t, step lastPulse = .next t ∧ nextInput lastPulse ≠ .rst ∧ t.frx.data ≠ lastPulse.frx.data :=
  ⟨_, rfl, by decide, by decide⟩

theorem witness_SettingsHoldWhileBusy :
    ∃ t, step firstPulse = .next t ∧ nextInput firstPulse ≠ .rst ∧ firstPulse.frx.seq ≠ .idle :=
  ⟨_, rfl, by decide, by decide⟩

theorem witness_HostCannotDisturbARunningCommand :
    (∀ x ∈ firstPulse.port, x ≠ .rst) ∧ (∀ x ∈ [EdgeInput.access (.cmd32 4), .access (.busop 0b1010 2)], x ≠ .rst) ∧
    (∀ j u, j < 1 → runEdges j firstPulse = .next u → u.frx.seq ≠ .idle) ∧ ∃ t, runEdges 1 firstPulse = .next t := by
  refine ⟨by decide, by decide, ?_, _, rfl⟩
  intro j u hj hu
  obtain rfl : j = 0 := by omega
  obtain rfl : firstPulse = u := Host.Outcome.next.inj hu
  decide

theorem witness_PowerChangesOnlyAsAPowerPhaseEnds :
    ∃ t, step (running .pdHold 1 .powerDown) = .next t ∧ nextInput (running .pdHold 1 .powerDown) ≠ .rst ∧
      t.frx.pwr ≠ (running .pdHold 1 .powerDown).frx.pwr :=
  ⟨_, rfl, by decide, by decide⟩

theorem witness_OnlyPowerUpWakesTheDevice :
    let s := { down with port := [.access (.cmd32 4)] }
    (Inv s ∧ s.frx.pwr = .poweredDown ∧ s.frx.sckQ = true ∧ ∃ t, step s = .next t ∧ t.frx.sckQ = false) ∧
    let h := running .pdHold 1 .resetDev
    Inv h ∧ h.frx.seq = .pdHold ∧ h.frx.sckQ = true ∧ ∃ t, step h = .next t ∧ t.frx.sckQ = false :=
  ⟨⟨⟨down_runnable, down_inv.block, down_inv.device⟩, rfl, rfl, _, rfl, by decide⟩,
    holdEnd_inv, rfl, rfl, _, rfl, by decide⟩

theorem witness_InterruptLevelFollowsDone : Inv firstPulse ∧ firstPulse.frx.seq ≠ .idle := ⟨firstPulse_inv, by decide⟩

theorem witness_DinIsTheLevelSEdgesAgo :
    let s := { idle with par := Config.setB }
    Runnable s ∧ noRstFor s.par.syncStages s := by
  refine ⟨by decide, ?_⟩
  intro x hx
  simp [idle] at hx

theorem witness_FrameLastsItsPulses :
    Inv firstPulse ∧ firstPulse.frx.seq = .bitHigh ∧ firstPulse.frx.n = 0 ∧ firstPulse.frx.tmr = firstPulse.par.tHigh ∧
    noRstFor 100 firstPulse := by
  refine ⟨firstPulse_inv, rfl, rfl, rfl, ?_⟩
  intro x hx
  simp [firstPulse, running, idle] at hx

theorem witness_BoundedWaitTimesOut :
    let s := waitWith 1 0
    Runnable s ∧ s.frx.seq = .wait ∧ s.frx.wcnt = 0 ∧ s.frx.timeout ≠ 0 ∧ noRstFor s.frx.timeout.toNat s ∧
    ∀ j u, j < s.frx.timeout.toNat → runEdges j s = .next u → din u.par u.dev.line u.frx ≠ u.par.readyLevel := by
  refine ⟨by decide, rfl, rfl, by decide, ?_, ?_⟩
  · intro x hx
    simp [waitWith, running, idle] at hx
  · intro j u hj hu
    obtain rfl : j = 0 := by
      have : (waitWith 1 0).frx.timeout.toNat = 1 := rfl
      omega
    obtain rfl : waitWith 1 0 = u := Host.Outcome.next.inj hu
    decide

theorem witness_PowerDownReachesTheDevice :
    let s := { idle with port := [.access (.cmd32 3)] }
    Inv s ∧ s.frx.seq = .idle ∧ s.frx.pwr = .active ∧ nextInput s = .access (.cmd32 3) ∧
    decode (.cmd32 3) = .powerDown ∧ noRstFor (s.par.tLow + s.par.tPd + 1) s := by
  refine ⟨⟨idle_runnable, idle_inv.block, idle_inv.device⟩, rfl, rfl, rfl, by decide, ?_⟩
  intro x hx
  have := List.mem_of_mem_take hx
  simp at this
  simp [this]

theorem witness_ResetDevAtGain128TakesItsPhases :
    let s := { idle with port := [.access (.cmd32 5)] }
    Inv s ∧ s.frx.seq = .idle ∧ s.frx.pwr = .active ∧ s.frx.gain = .g128 ∧ nextInput s = .access (.cmd32 5) ∧
    decode (.cmd32 5) = .resetDev ∧ noRstFor (s.par.tLow + s.par.tPd + s.par.tPu + 1) s := by
  refine ⟨⟨idle_runnable, idle_inv.block, idle_inv.device⟩, rfl, rfl, rfl, rfl, by decide, ?_⟩
  intro x hx
  have := List.mem_of_mem_take hx
  simp at this
  simp [this]

theorem witness_FrameDeliversTheDevicesWord :
    let s := readyWait
    Inv s ∧ s.frx.seq = .wait ∧ s.frx.op = .acquire ∧ din s.par s.dev.line s.frx = s.par.readyLevel ∧
    s.dev.on = true ∧ s.dev.avail = true ∧ s.dev.c = 0 ∧ s.dev.stray = 0 ∧ s.dev.h = 0 ∧ noRstFor 101 s := by
  refine ⟨readyWait_inv, rfl, rfl, by decide, rfl, rfl, rfl, rfl, rfl, ?_⟩
  intro x hx
  simp [readyWait, running, idle] at hx

/-- An idle device with a conversion waiting, at an edge with no access. -/
def offering : State := { idle with dev := { device with avail := true, line := false } }

theorem witness_LineIsReadyExactlyWhenAvailable :
    ∃ t, exec .rdCmd offering = .next t ∧ t.dev.on = true ∧ t.dev.c = 0 ∧ t.dev.stray = 0 :=
  ⟨_, rfl, by decide, by decide, by decide⟩

/-- A clause each: the first rising edge, and one inside a frame. -/
theorem witness_DeviceCountsRisingEdges :
    (∃ t, exec .rdCmd readyWait = .next t ∧ readyWait.dev.on = true ∧ readyWait.frx.sckQ = false ∧ t.frx.sckQ = true ∧
      readyWait.dev.h + 1 < readyWait.par.tDevPd ∧ readyWait.dev.window ≠ 1 ∧ readyWait.dev.c = 0 ∧
      readyWait.dev.avail = true) ∧
    let s := { running .bitLow 1 .acquire with dev := { device with c := 1, window := 104 } }
    ∃ t, exec .rdCmd s = .next t ∧ s.dev.on = true ∧ s.frx.sckQ = false ∧ t.frx.sckQ = true ∧
      s.dev.h + 1 < s.par.tDevPd ∧ s.dev.window ≠ 1 ∧ s.dev.c ≠ 0 :=
  ⟨⟨_, rfl, rfl, rfl, by decide, by decide, by decide, rfl, rfl⟩,
    _, rfl, rfl, rfl, by decide, by decide, by decide, by decide⟩

/-- A clause each: 25, 26 and 27 rising edges. -/
theorem witness_ClosingWindowProgramsTheGain :
    ∀ c ∈ [25, 26, 27],
      let s := { idle with dev := { device with c := c, window := 1, avail := true } }
      ∃ t, exec .rdCmd s = .next t ∧ s.dev.on = true ∧ s.dev.window = 1 ∧ t.dev.on = true ∧
        ¬ (s.frx.sckQ = false ∧ t.frx.sckQ = true) := by
  intro c _
  exact ⟨_, rfl, rfl, rfl, rfl, fun h => Bool.false_ne_true (show false = true from h.2)⟩

theorem witness_HeldClockPowersTheDeviceDown :
    (let s := { running .pdHold 2 .powerDown with dev := { device with h := 2 } }
      ∃ t, exec .rdCmd s = .next t ∧ s.dev.on = true ∧ t.frx.sckQ = true ∧ s.par.tDevPd ≤ s.dev.h + 1) ∧
    (∃ t, exec .powerUp down = .next t ∧ down.dev.on = false ∧ down.frx.sckQ = true ∧ t.frx.sckQ = false) ∧
    ∃ t, exec .rdCmd down = .next t ∧ down.dev.on = false ∧ ¬ (down.frx.sckQ = true ∧ t.frx.sckQ = false) :=
  ⟨⟨_, rfl, rfl, by decide, by decide⟩, ⟨_, rfl, rfl, rfl, by decide⟩, _, rfl, rfl, by decide⟩

/-- The reset of `down` wakes its device, which then stands outside a frame. -/
theorem witness_ResetEdgeMeetsTheDevice :
    ∃ t, resetEdge down = .next t ∧ down.dev.on = false ∧ down.frx.sckQ = true ∧ t.dev.on = true ∧ t.dev.stray = 0 ∧
      t.dev.c = 0 ∧ resetHeld down = false ∧ down.par.tDv = 0 :=
  ⟨_, rfl, rfl, rfl, rfl, rfl, rfl, by decide, rfl⟩

/-- The clause about a frame, at both ends of the data pulses and past them. A reset's draws are opaque, so the witness is the
reset of `idle` at any counter whose draws leave the device on in such a frame. -/
theorem witness_ResetEdgeMeetsTheDevice_inFrame (draw : Nat) (on : Config.drawOn draw = true) (c : Nat)
    (hc : Config.drawCount draw = c) (_ : c ∈ [1, 24, 25]) :
    ∃ t, resetEdge { idle with draws := draw } = .next t ∧ resetHeld { idle with draws := draw } = false ∧
      idle.par.tDv = 0 ∧ t.dev.on = true ∧ t.dev.stray = 0 ∧ t.dev.c = c :=
  ⟨_, rfl, rfl, rfl, on, rfl, hc⟩

/-- A field that matches, and one that does not. -/
theorem witness_PollReadsUntilTheFieldMatches :
    Runnable idle ∧ fieldValue .busy (rdata idle (fieldReg .busy)) = 0 ∧
    fieldValue .err (rdata idle (fieldReg .err)) ≠ 4 := by decide

theorem witness_PseudoInstructionsAssemble :
    CmdName.acquire ≠ .setGain ∧
    (CmdName.resetDev, (0x00000005 : Word)) ∈
      [(CmdName.nop, (0x00000000 : Word)), (.acquire, 0x00000001), (.powerDown, 0x00000003), (.powerUp, 0x00000004),
        (.resetDev, 0x00000005)] := by decide

end Sys2Proof.Tests
end

section
/-! PROOFS of 00_scope.md. Which parameter sets R6 allows, and that every form of input meets the same refusal. -/

namespace Sys2Proof.Proofs

open Sys2Proof.Machine Sys2Proof.Laws

/-- R6's ranges and K1 to K6, with `T_BIT` written out. -/
theorem paramsLegal_iff (p : Params) :
    paramsLegal p = true ↔
      (1 ≤ p.tHigh ∧ 1 ≤ p.tLow ∧ 1 ≤ p.tPd ∧ 1 ≤ p.tPu ∧ 1 ≤ p.tDevPd) ∧
      p.syncStages + 1 + p.tDv ≤ p.tSample ∧ p.tSample ≤ p.tHigh ∧
      p.tHigh < p.tDevPd ∧ p.tDevPd ≤ p.tPd ∧
      27 * (p.tHigh + p.tLow) ≤ p.tFrameMax ∧
      p.syncStages + p.tDv ≤ p.tHigh + p.tLow + 1 ∧ p.syncStages ≤ p.tPu := by
  simp only [paramsLegal, decide_eq_true_eq, paramRanges, constraintK1, constraintK2, constraintK3, constraintK4,
    constraintK5, constraintK6, tBit, and_assoc]

/-- The other refusal of a clock edge, a run begun without reset, is met only after the parameters have passed. -/
theorem clockEdge_refusesParameters_iff {host : Frx → Frx} {got : Word} {s : State} :
    clockEdge host got s = .refused .parametersBreakConstraints ↔ paramsLegal s.par = false := by
  unfold clockEdge
  cases paramsLegal s.par <;> cases s.resetSeen <;> simp

theorem resetEdge_refusesParameters_iff {s : State} :
    resetEdge s = .refused .parametersBreakConstraints ↔ paramsLegal s.par = false := by
  unfold resetEdge
  cases paramsLegal s.par <;> simp

theorem exec_refusesParameters_iff (i : Instr) {s : State} :
    exec i s = .refused .parametersBreakConstraints ↔ paramsLegal s.par = false := by
  rw [exec_is_clockEdge, clockEdge_refusesParameters_iff]

/-- A `POLL` is refused as its read is: comparing the field refuses nothing. -/
theorem pollEdge_refused_iff {field : Field} {value : Nat} {s : State} {r : Refusal} :
    pollEdge field value s = .refused r ↔ exec (Decode.readOf (fieldReg field)) s = .refused r := by
  unfold pollEdge
  cases exec (Decode.readOf (fieldReg field)) s <;> simp

/-- Whatever an edge brings, it is refused for its parameters exactly when they break R6. -/
theorem presentInput_refusesParameters_iff (x : EdgeInput) {s : State} :
    presentInput x s = .refused .parametersBreakConstraints ↔ paramsLegal s.par = false := by
  cases x with
  | rst => exact resetEdge_refusesParameters_iff
  | idle => exact clockEdge_refusesParameters_iff
  | access word => exact exec_refusesParameters_iff (decode word)
  | poll field value => exact pollEdge_refused_iff.trans (exec_refusesParameters_iff _)

/-- Settles O10: the constraints are `paramsLegal` written out, and a step presents one input to the edge. -/
theorem illegalParametersAreRefused : Obligations.IllegalParametersAreRefused := by
  unfold Obligations.IllegalParametersAreRefused
  intro s
  exact ⟨paramsLegal_iff s.par, presentInput_refusesParameters_iff (nextInput s)⟩

end Sys2Proof.Proofs
end

section
/-! PROOFS of 10_state.md, part one. What an accepted access and the sequencer do to the block, said once: the outcomes of an
access to an idle block, and that what every end action keeps the sequencer keeps. -/

namespace Sys2Proof.Proofs

open Sys2Proof.Machine Sys2Proof.Safety Sys2Proof.Laws

/-- The outcomes of an access to an idle block, with what R96, R97 and the start steps ask of PWR. -/
inductive IdleOutcome (p : Params) (f : Frx) : Frx → Prop
  | same : IdleOutcome p f f
  | cfg (v : Word) : IdleOutcome p f (writeCfg v f)
  | timeout (v : Word) : IdleOutcome p f (writeTimeout v f)
  | status (v : Word) : IdleOutcome p f (clearStatus v f)
  | atOnce (code : Err) : IdleOutcome p f (completeAtOnce code f)
  | gainOnly (g : GainChannel) : IdleOutcome p f (completeAtOnce .ok { f with gain := g })
  | sample (active : f.pwr = .active) : IdleOutcome p f (startFrame false (accept .acquire f))
  | discard (g : GainChannel) (active : f.pwr = .active) :
      IdleOutcome p f (startFrame true (accept .setGain { f with gain := g }))
  | goDown (op : Op) (fits : op ∈ opsIn .pdLow) (active : f.pwr = .active) :
      IdleOutcome p f (setSck false (enter .pdLow p.tLow (accept op f)))
  | settle (op : Op) (fits : op ∈ opsIn .puSettle) :
      IdleOutcome p f (setSck false (enter .puSettle p.tPu (accept op f)))

section start
variable (p : Params) (f : Frx)

theorem startAcquire_outcome : IdleOutcome p f (startAcquire f) := by
  cases h : f.pwr with
  | active => exact startAcquire_active h ▸ .sample h
  | poweredDown => exact startAcquire_poweredDown h ▸ .atOnce .notActive

theorem startSetGain_outcome (g : GainChannel) : IdleOutcome p f (startSetGain g f) := by
  cases h : f.pwr with
  | active => exact startSetGain_active g h ▸ .discard g h
  | poweredDown => exact startSetGain_poweredDown g h ▸ .gainOnly g

theorem startSetGainCode_outcome (gsel : BitVec 2) : IdleOutcome p f (startSetGainCode gsel f) := by
  unfold startSetGainCode
  split
  · exact startSetGain_outcome p f _
  · exact .atOnce .badGain

theorem startPowerDown_outcome : IdleOutcome p f (startPowerDown p f) := by
  cases h : f.pwr with
  | active => exact startPowerDown_active p h ▸ .goDown .powerDown (by decide) h
  | poweredDown => exact startPowerDown_poweredDown p h ▸ .atOnce .ok

theorem startPowerUp_outcome : IdleOutcome p f (startPowerUp p f) := .settle .powerUp (by decide)

theorem startResetDev_outcome : IdleOutcome p f (startResetDev p f) := by
  cases h : f.pwr with
  | active => exact startResetDev_active p h ▸ .goDown .resetDev (by decide) h
  | poweredDown => exact startResetDev_poweredDown p h ▸ .settle .resetDev (by decide)

theorem startVerdict_outcome (v : Verdict) : IdleOutcome p f (startVerdict p v f) := by
  cases v with
  | illegal => exact .atOnce .illegal
  | badGain => exact .atOnce .badGain
  | nop => exact .atOnce .ok
  | acquire => exact startAcquire_outcome p f
  | setGain g => exact startSetGain_outcome p f g
  | powerDown => exact startPowerDown_outcome p f
  | powerUp => exact startPowerUp_outcome p f
  | resetDev => exact startResetDev_outcome p f

end start

/-- All an access can do to an idle block. -/
theorem accessEffect_idle (p : Params) (i : Instr) {f : Frx} (h : f.seq = .idle) :
    IdleOutcome p f (accessEffect p i f) := by
  cases i <;> simp only [accessEffect, writeWhenIdle_idle h]
  case nop => exact .atOnce .ok
  case acquire => exact startAcquire_outcome p f
  case setGain gsel => exact startSetGainCode_outcome p f gsel
  case badGain => exact .atOnce .badGain
  case powerDown => exact startPowerDown_outcome p f
  case powerUp => exact startPowerUp_outcome p f
  case resetDev => exact startResetDev_outcome p f
  case illegalOp6 | illegalOp7 => exact .atOnce .illegal
  case wrCfg v => exact .cfg v
  case wrCmd v => exact startVerdict_outcome p f (verdict v)
  case wrStatus v => exact .status v
  case wrTimeout v => exact .timeout v
  all_goals exact .same

/-- A timed phase keeps what its end action and the timer keep (R117). -/
theorem timed_keeps {α : Type} (field : Frx → α) {endAction : Frx → Frx} {f : Frx}
    (count : field { f with tmr := f.tmr - 1 } = field f) (act : f.tmr = 1 → field (endAction f) = field f) :
    field (timed endAction f) = field f := by
  obtain ⟨-, h⟩ | ⟨h1, h⟩ | ⟨-, h⟩ := timed_cases endAction f <;> rw [h]
  · exact count
  · exact act h1

/-- `timed_keeps`, for a predicate: only a timer above 1 counts down. -/
theorem timed_inv {P : Frx → Prop} {endAction : Frx → Frx} {f : Frx} (h : P f)
    (count : 1 < f.tmr → P { f with tmr := f.tmr - 1 }) (act : P (endAction f)) : P (timed endAction f) := by
  obtain ⟨h1, h'⟩ | ⟨-, h'⟩ | ⟨-, h'⟩ := timed_cases endAction f <;> rw [h']
  · exact count h1
  · exact act
  · exact h

/-- The sampler writes the bit array alone (R120). -/
theorem sampleBit_eq (p : Params) (level : Bool) (f : Frx) : ∃ bits, sampleBit p level f = { f with sbits := bits } := by
  unfold sampleBit
  split
  · exact ⟨_, rfl⟩
  · exact ⟨f.sbits, rfl⟩

end Sys2Proof.Proofs
end

section
/-! PROOFS of 10_state.md, part two. The block's and the device's invariant, edge by edge. -/

namespace Sys2Proof.Proofs

open Sys2Proof.Machine Sys2Proof.Safety Sys2Proof.Laws

/-! ## The block -/

/-- The clauses of `BlockInv` that speak of no phase. -/
structure RecordsInv (p : Params) (f : Frx) : Prop where
  syncLength : f.sync.length = p.syncStages
  words : ∃ frame : Frame, f.raw = rawWord frame ∧ f.data = dataWord frame
  noSample : f.valid = false → f.raw = 0 ∧ f.data = 0 ∧ f.dtag = none

/-- What a block fulfils that may enter the busy phase `ph`: the clauses of `BlockInv`, but for the timer, the clock level and
the wait counter, which the entry sets. -/
structure FitsPhase (p : Params) (ph : Phase) (f : Frx) : Prop extends RecordsInv p f where
  op : f.op ∈ opsIn ph
  discard : framePhase ph = true → (f.discard = false ↔ f.op = .acquire)
  power : framePhase ph = true ∨ ph = .pdLow ∨ ph = .pdHold → f.pwr = .active
  flags : f.done = false ∧ f.err = .ok
  pulse : pulsePhase ph = true → f.k.val < pulses f.gain ∧ f.n = 23

section block
variable {p : Params} {f : Frx}

theorem recordsInv_of_blockInv (h : BlockInv p f) : RecordsInv p f := { h with }

/-- A busy block fits the phase it is in. -/
theorem fitsPhase_of_blockInv {ph : Phase} (h : BlockInv p f) (hs : f.seq = ph) (busy : ph ≠ .idle) : FitsPhase p ph f := by
  subst hs
  exact { h with flags := h.flags busy }

/-- The length of a timed phase is a parameter that R6 keeps above 0. -/
theorem phaseLength_pos (hp : paramsLegal p = true) {ph : Phase} (hi : ph ≠ .idle) (hw : ph ≠ .wait) : 1 ≤ phaseLength p ph := by
  obtain ⟨⟨hHigh, hLow, hPd, hPu, -⟩, -⟩ := (paramsLegal_iff p).mp hp
  cases ph with
  | idle => exact absurd rfl hi
  | wait => exact absurd rfl hw
  | pdLow | bitLow | pulseLow => exact hLow
  | bitHigh | pulseHigh => exact hHigh
  | pdHold => exact hPd
  | puSettle => exact hPu

/-- A block that enters a timed phase at the phase's clock level has the invariant (R117, R123). -/
theorem FitsPhase.enters {ph : Phase} (fit : FitsPhase p ph f) (hp : paramsLegal p = true) (hi : ph ≠ .idle) (hw : ph ≠ .wait) :
    BlockInv p (setSck (clockLevel f.pwr ph) (enter ph (phaseLength p ph) f)) :=
  { fit with
    timer := fun _ => ⟨phaseLength_pos hp hi hw, le_rfl⟩
    clock := rfl
    flags := fun _ => fit.flags
    bounded := fun h => absurd h hw }

/-- A frame starts with the clock low and the wait counter at 0 (R140, R123). -/
theorem FitsPhase.startsFrame {d : Bool} (fit : FitsPhase p .wait (startFrame d f)) (hc : f.sckQ = false) :
    BlockInv p (startFrame d f) :=
  { fit with
    timer := fun h => absurd rfl h
    clock := hc
    flags := fun _ => fit.flags
    bounded := fun _ ht => Nat.pos_of_ne_zero fun h0 => ht (BitVec.eq_of_toNat_eq h0) }

/-- The acceptance of a command that starts with a frame (R97, R140): ACQUIRE's alone is no discard frame. -/
theorem RecordsInv.acceptsFrame (h : RecordsInv p f) {op : Op} {d : Bool} (active : f.pwr = .active) (hc : f.sckQ = false)
    (hop : op ∈ opsIn .wait) (hd : d = false ↔ op = .acquire) : BlockInv p (startFrame d (accept op f)) :=
  FitsPhase.startsFrame
    { h with op := hop, discard := fun _ => hd, power := fun _ => active, flags := ⟨rfl, rfl⟩, pulse := nofun } hc

/-- In an idle block the phase settles every clause but those on the records, the command and the clock level. -/
theorem RecordsInv.idle (h : RecordsInv p f) (hs : f.seq = .idle) (hop : f.op = .none) (hc : f.sckQ = clockLevel f.pwr .idle) :
    BlockInv p f :=
  { h with
    timer := by simp [hs, phaseLength]
    clock := hs ▸ hc
    op := by simp [hs, hop, opsIn]
    discard := by simp [hs, framePhase]
    power := by simp [hs, framePhase]
    flags := fun busy => absurd hs busy
    bounded := by simp [hs]
    pulse := by simp [hs, pulsePhase] }

/-- A completion leaves an idle block, whose clock level R123 ties to PWR. -/
theorem RecordsInv.completes (h : RecordsInv p f) (code : Err) (hc : f.sckQ = clockLevel f.pwr .idle) :
    BlockInv p (complete code f) :=
  RecordsInv.idle { h with } rfl rfl hc

/-- The synchronizer's shift keeps the invariant (R111). -/
theorem blockInv_shift (h : BlockInv p f) {line : Bool} {chain : List Bool} (hl : chain.length = p.syncStages) :
    BlockInv p { f with sync := shiftSync p line chain } :=
  { h with syncLength := shiftSync_length hl }

/-! ### An access -/

/-- What an access leaves of an idle block has the invariant. -/
theorem idleOutcome_inv (hp : paramsLegal p = true) (h : BlockInv p f) (hs : f.seq = .idle) {g : Frx} (hg : IdleOutcome p f g) :
    BlockInv p g := by
  have hop : f.op = .none := by simpa [hs, opsIn] using h.op
  have hc : f.sckQ = clockLevel f.pwr .idle := hs ▸ h.clock
  have hr := recordsInv_of_blockInv h
  have low (active : f.pwr = .active) : f.sckQ = false := by rw [hc, active]; rfl
  cases hg with
  | same => exact h
  | cfg v => exact RecordsInv.idle { hr with } hs hop hc
  | timeout v => exact RecordsInv.idle { hr with } hs hop hc
  | status v => exact RecordsInv.idle { hr with } hs hop hc
  | atOnce code => exact RecordsInv.idle { hr with } hs rfl hc
  | gainOnly g => exact RecordsInv.idle { hr with } hs rfl hc
  | sample active => exact hr.acceptsFrame active (low active) (by decide) (by decide)
  | discard g active =>
    have withGain : RecordsInv p { f with gain := g } := { hr with }
    exact withGain.acceptsFrame active (low active) (by decide) (by decide)
  | goDown op fits active =>
    exact FitsPhase.enters (ph := .pdLow)
      { h with op := fits, discard := nofun, power := fun _ => active, flags := ⟨rfl, rfl⟩, pulse := nofun } hp nofun nofun
  | settle op fits =>
    exact FitsPhase.enters (ph := .puSettle)
      { h with op := fits, discard := nofun, power := by simp [framePhase], flags := ⟨rfl, rfl⟩, pulse := nofun } hp nofun nofun

/-- An access keeps the invariant: a busy block has no flag up that it could leave standing. -/
theorem accessEffect_inv (hp : paramsLegal p = true) (h : BlockInv p f) (i : Instr) : BlockInv p (accessEffect p i f) := by
  by_cases hs : f.seq = .idle
  · exact idleOutcome_inv hp h hs (accessEffect_idle p i hs)
  · obtain ⟨d, o, he, hd⟩ := accessEffect_busy p i hs
    obtain ⟨hdone, herr⟩ := h.flags hs
    rw [he]
    exact { h with flags := fun _ => ⟨Bool.eq_false_iff.mpr fun hd' => by simp [hd hd'] at hdone, herr⟩ }

/-! ### The sequencer's end actions, each in its phase -/

theorem pdLowEnd_inv (hp : paramsLegal p = true) (h : BlockInv p f) (hs : f.seq = .pdLow) : BlockInv p (pdLowEnd p f) := by
  have fit := fitsPhase_of_blockInv h hs nofun
  exact FitsPhase.enters (ph := .pdHold) { fit with power := fun _ => fit.power (by decide) } hp nofun nofun

theorem pdHoldEnd_inv (hp : paramsLegal p = true) (h : BlockInv p f) (hs : f.seq = .pdHold) : BlockInv p (pdHoldEnd p f) := by
  have fit := fitsPhase_of_blockInv h hs nofun
  unfold pdHoldEnd
  dsimp only
  split
  next hop =>
    exact FitsPhase.enters (ph := .puSettle)
      { fit with op := by simp [hop, opsIn], discard := nofun, power := by simp [framePhase], pulse := nofun } hp nofun nofun
  next =>
    have down : RecordsInv p { f with pwr := .poweredDown, devg := some .g128 } := { h with }
    exact down.completes .ok (by simp [h.clock, hs, clockLevel])

theorem puSettleEnd_inv (h : BlockInv p f) (hs : f.seq = .puSettle) : BlockInv p (puSettleEnd f) := by
  have fit := fitsPhase_of_blockInv h hs nofun
  have hop : f.op = .powerUp ∨ f.op = .resetDev ∨ f.op = .init := by simpa [opsIn] using fit.op
  have hc : f.sckQ = false := by rw [h.clock, hs]; rfl
  unfold puSettleEnd
  dsimp only
  split
  next =>
    refine FitsPhase.startsFrame { fit with op := ?_, discard := fun _ => ?_, power := fun _ => rfl, pulse := nofun } hc
    · rcases hop with hop | hop | hop <;> simp [hop, opsIn]
    · rcases hop with hop | hop | hop <;> simp [hop]
  next =>
    have up : RecordsInv p { f with pwr := .active } := { h with }
    exact up.completes .ok hc

/-- R114 and R116: a wait that goes on has not reached its bound. -/
theorem waitReady_inv (hp : paramsLegal p = true) (h : BlockInv p f) (hs : f.seq = .wait) (level : Bool) :
    BlockInv p (waitReady p level f) := by
  have fit := fitsPhase_of_blockInv h hs nofun
  have active : f.pwr = .active := fit.power (by decide)
  unfold waitReady
  split
  next =>
    exact FitsPhase.enters (ph := .bitHigh) { fit with power := fun _ => active, pulse := nofun } hp nofun nofun
  next =>
    split
    next =>
      have hc : f.sckQ = clockLevel f.pwr .idle := by rw [h.clock, hs, active]; rfl
      exact (recordsInv_of_blockInv h).completes .timeout hc
    next hbound =>
      refine { h with bounded := fun _ ht => ?_ }
      have hlt := h.bounded hs ht
      have hmax := f.timeout.isLt
      simp only [not_and, not_le] at hbound
      have hnext := hbound ht
      have one : (1 : Word).toNat = 1 := rfl
      simp only [BitVec.toNat_add, one]
      omega

theorem bitHighEnd_inv (hp : paramsLegal p = true) (h : BlockInv p f) (hs : f.seq = .bitHigh) : BlockInv p (bitHighEnd p f) := by
  have fit := fitsPhase_of_blockInv h hs nofun
  exact FitsPhase.enters (ph := .bitLow) { fit with power := fun _ => fit.power (by decide) } hp nofun nofun

theorem bitLowEnd_inv (hp : paramsLegal p = true) (h : BlockInv p f) (hs : f.seq = .bitLow) : BlockInv p (bitLowEnd p f) := by
  have fit := fitsPhase_of_blockInv h hs nofun
  unfold bitLowEnd
  split
  next => exact FitsPhase.enters (ph := .bitHigh) { fit with power := fun _ => fit.power (by decide), pulse := nofun } hp nofun nofun
  next hn =>
    exact FitsPhase.enters (ph := .pulseHigh)
      { fit with power := fun _ => fit.power (by decide), pulse := fun _ => ⟨pulses_pos _, Fin.ext (by simp; omega)⟩ } hp nofun nofun

theorem pulseHighEnd_inv (hp : paramsLegal p = true) (h : BlockInv p f) (hs : f.seq = .pulseHigh) :
    BlockInv p (pulseHighEnd p f) := by
  have fit := fitsPhase_of_blockInv h hs nofun
  exact FitsPhase.enters (ph := .pulseLow) { fit with power := fun _ => fit.power (by decide) } hp nofun nofun

/-- The sample is one frame's, and it sets VALID (R152). -/
theorem recordSample_records (h : RecordsInv p f) : RecordsInv p (recordSample f) := by
  unfold recordSample
  split
  · exact h
  · exact { h with words := ⟨_, rfl, rfl⟩, noSample := nofun }

theorem recordSample_pwr : (recordSample f).pwr = f.pwr := by
  unfold recordSample
  split <;> rfl

theorem frameEnd_inv (h : BlockInv p f) (active : f.pwr = .active) : BlockInv p (frameEnd f) := by
  have hr := recordSample_records (recordsInv_of_blockInv h)
  have ended : RecordsInv p (setSck false { recordSample f with devg := some f.gain }) := { hr with }
  exact ended.completes .ok (by simp [recordSample_pwr, active, clockLevel])

theorem pulseLowEnd_inv (hp : paramsLegal p = true) (h : BlockInv p f) (hs : f.seq = .pulseLow) : BlockInv p (pulseLowEnd p f) := by
  have fit := fitsPhase_of_blockInv h hs nofun
  have active : f.pwr = .active := fit.power (by decide)
  obtain ⟨-, hn⟩ := fit.pulse rfl
  unfold pulseLowEnd
  split
  next hk =>
    have hk' : (f.k + 1).val = f.k.val + 1 := Fin.val_add_one_of_lt' (by have := pulses_le_three f.gain; omega)
    exact FitsPhase.enters (ph := .pulseHigh) { fit with power := fun _ => active, pulse := fun _ => ⟨hk' ▸ hk, hn⟩ } hp nofun nofun
  next => exact frameEnd_inv h active

/-- A timed phase keeps the invariant if its end action does. -/
theorem timed_blockInv {endAction : Frx → Frx} (h : BlockInv p f) (act : BlockInv p (endAction f)) :
    BlockInv p (timed endAction f) := by
  refine timed_inv h (fun h1 => { h with timer := fun ht => ?_ }) act
  obtain ⟨-, hle⟩ := h.timer ht
  exact ⟨by dsimp only; omega, by dsimp only; omega⟩

theorem sequencer_inv (hp : paramsLegal p = true) (level : Bool) (h : BlockInv p f) : BlockInv p (sequencer p level f) := by
  unfold sequencer
  split
  next => exact h
  next hs => exact timed_blockInv h (pdLowEnd_inv hp h hs)
  next hs => exact timed_blockInv h (pdHoldEnd_inv hp h hs)
  next hs => exact timed_blockInv h (puSettleEnd_inv h hs)
  next hs => exact waitReady_inv hp h hs level
  next hs =>
    obtain ⟨bits, hb⟩ := sampleBit_eq p level f
    rw [hb]
    have h' : BlockInv p { f with sbits := bits } := { h with }
    exact timed_blockInv h' (bitHighEnd_inv hp h' hs)
  next hs => exact timed_blockInv h (bitLowEnd_inv hp h hs)
  next hs => exact timed_blockInv h (pulseHighEnd_inv hp h hs)
  next hs => exact timed_blockInv h (pulseLowEnd_inv hp h hs)

/-- An edge of the block with any access keeps the invariant. -/
theorem blockEdge_inv (hp : paramsLegal p = true) (line : Bool) (i : Instr) (h : BlockInv p f) :
    BlockInv p (blockEdge p line (accessEffect p i) f) := by
  have written := accessEffect_inv hp h i
  by_cases hs : f.seq = .idle
  · rw [blockEdge_idle hs]
    exact blockInv_shift written h.syncLength
  · rw [blockEdge_busy hs]
    exact blockInv_shift (sequencer_inv hp _ written) h.syncLength

/-- The reset values have the invariant (R230). -/
theorem reset_blockInv (hp : paramsLegal p = true) : BlockInv p (Frx.reset p) where
  syncLength := List.length_replicate
  timer := fun _ => ⟨phaseLength_pos (ph := .puSettle) hp nofun nofun, le_rfl⟩
  clock := rfl
  op := by simp [Frx.reset, opsIn]
  discard := nofun
  power := by simp [Frx.reset, framePhase]
  flags := fun _ => ⟨rfl, rfl⟩
  bounded := nofun
  pulse := nofun
  words := ⟨0, (by decide : (0 : Word) = rawWord 0), (by decide : (0 : Word) = dataWord 0)⟩
  noSample := fun _ => ⟨rfl, rfl, rfl⟩

end block

/-! ## The device -/

section device
variable {p : Params} {d : Device} {draw : Nat}

/-- The invariant looks at the pulse count, the window and the stray levels alone. -/
theorem deviceInv_of_same {e : Device} (h : DeviceInv p d) (hc : e.c = d.c) (hw : e.window = d.window) (hs : e.stray = d.stray) :
    DeviceInv p e :=
  ⟨by rw [hc, hw]; exact h.frameOpen, hw ▸ h.window, hs ▸ h.stray⟩

/-- A device with no frame open and no stray levels (R130). -/
theorem deviceInv_of_closed (hc : d.c = 0) (hw : d.window = 0) (hs : d.stray = 0) : DeviceInv p d :=
  ⟨by simp [hc, hw], by simp [hw], by simp [hs]⟩

/-- K4 gives a frame a window of at least one cycle. -/
theorem tFrameMax_pos (hp : paramsLegal p = true) : 0 < p.tFrameMax := by
  obtain ⟨⟨hHigh, -⟩, -, -, -, -, hK4, -⟩ := (paramsLegal_iff p).mp hp
  omega

theorem windowTick_inv (h : DeviceInv p d) : DeviceInv p (windowTick draw d) := by
  by_cases hw : d.window = 1
  · rw [windowTick_of_one hw]
    exact ⟨by simp, Nat.zero_le _, h.stray⟩
  · rw [windowTick_of_ne_one hw]
    have hopen := h.frameOpen
    have hmax := h.window
    exact ⟨by dsimp only; omega, by dsimp only; omega, h.stray⟩

theorem risingEdge_inv (hp : paramsLegal p = true) (h : DeviceInv p d) : DeviceInv p (risingEdge p draw d) := by
  have hstray : d.stray - 1 ≤ 24 := (Nat.sub_le _ _).trans h.stray
  by_cases hc : d.c = 0
  · cases ha : d.avail
    · rw [risingEdge_stray hc ha]
      exact ⟨h.frameOpen, h.window, le_rfl⟩
    · rw [risingEdge_begins hc ha]
      exact ⟨by simp [(tFrameMax_pos hp).ne'], le_rfl, hstray⟩
  · rw [risingEdge_inFrame hc]
    exact ⟨by simp [mt h.frameOpen.mpr hc], h.window, hstray⟩

theorem offerConversion_inv (h : DeviceInv p d) : DeviceInv p (offerConversion draw d) := by
  obtain he | ⟨-, -, he⟩ := offerConversion_cases draw d <;> rw [he]
  · exact h
  · exact deviceInv_of_same h rfl rfl rfl

theorem deviceOn_inv (hp : paramsLegal p = true) (rise : Bool) (h : DeviceInv p d) : DeviceInv p (deviceOn p draw rise d) := by
  obtain hd | hd := le_or_gt p.tDevPd d.h
  · obtain ⟨e, -, -, he⟩ := deviceOn_powersDown (draw := draw) (rise := rise) hd
    rw [he]
    exact deviceInv_of_closed rfl rfl rfl
  · rw [deviceOn_staysOn hd]
    have ticked : DeviceInv p (lagTick (windowTick draw d)) := deviceInv_of_same (windowTick_inv h) rfl rfl rfl
    refine offerConversion_inv ?_
    cases rise
    · exact deviceInv_of_same ticked rfl rfl rfl
    · exact deviceInv_of_same (risingEdge_inv (draw := draw) hp ticked) rfl rfl rfl

theorem deviceEdge_inv (hp : paramsLegal p = true) (was now : Bool) (h : DeviceInv p d) :
    DeviceInv p (deviceEdge p draw was now d) := by
  cases hon : d.on
  · obtain ⟨e, he, hcases⟩ := deviceEdge_off (p := p) (draw := draw) (was := was) (now := now) hon
    rw [he, hcases]
    split
    · exact deviceInv_of_closed rfl rfl rfl
    · exact deviceInv_of_same h rfl rfl rfl
  · rw [deviceEdge_on hon]
    have counted : DeviceInv p { d with h := if now then d.h + 1 else 0 } := deviceInv_of_same h rfl rfl rfl
    exact deviceInv_of_same (deviceOn_inv hp _ counted) rfl rfl rfl

/-- A drawn frame has some of its window left (U2). -/
theorem drawn_inv (hp : paramsLegal p = true) {stray : Nat} (hs : stray ≤ 24) : DeviceInv p (Device.drawn p draw stray) := by
  have hpos := tFrameMax_pos hp
  refine ⟨?_, ?_, hs⟩
  · by_cases hc : Config.drawCount draw = 0 <;> simp [Device.drawn, hc]
  · have hlt := Nat.mod_lt (Config.drawWindow draw) hpos
    by_cases hc : Config.drawCount draw = 0 <;> simp [Device.drawn, hc]
    omega

end device

/-! ## The machine -/

theorem resetDevice_inv {s : State} (hp : paramsLegal s.par = true) (h : DeviceInv s.par s.dev) :
    DeviceInv s.par (resetDevice s) := by
  obtain ⟨-, hd⟩ | ⟨-, hd⟩ := resetDevice_cases s <;> rw [hd]
  · exact deviceEdge_inv hp _ _ h
  · refine drawn_inv hp ?_
    split
    · exact h.stray
    · exact Nat.zero_le _

/-- Settles O40: a step is a reset edge, which sets up the invariant, or one edge of block and device, which each keep theirs. -/
theorem everyStepKeepsTheInvariant : Obligations.EveryStepKeepsTheInvariant := by
  unfold Obligations.EveryStepKeepsTheInvariant
  intro s t h hstep
  obtain ⟨⟨hp, hr⟩, block, device⟩ := h
  obtain ⟨-, -, rfl⟩ | ⟨-, -, -, i, got, port, -, rfl⟩ := step_next_cases hstep
  · exact ⟨⟨hp, rfl⟩, reset_blockInv hp, resetDevice_inv hp device⟩
  · exact ⟨⟨hp, hr⟩, blockEdge_inv hp _ i block, deviceEdge_inv hp _ _ device⟩

end Sys2Proof.Proofs
end

section
/-! PROOFS of 10_state.md, part three. What a step leaves of the sample registers and of the settings, and what reads show. -/

namespace Sys2Proof.Proofs

open Sys2Proof.Machine Sys2Proof.Safety Sys2Proof.Laws

/-! ## The sample registers and the settings -/

/-- DATA, RAW, DTAG and VALID. -/
def sampleRegisters (f : Frx) : Word × Word × Option GainChannel × Bool := (f.data, f.raw, f.dtag, f.valid)

/-- BITORD, BYTEORD, IRQEN, GAIN and TIMEOUT. -/
def settings (f : Frx) : Order × Order × Bool × GainChannel × Word := (f.bitord, f.byteord, f.irqen, f.gain, f.timeout)

/-- All that no phase writes but the end of a sample frame. -/
def heldFields (f : Frx) : (Order × Order × Bool × GainChannel × Word) × Word × Word × Option GainChannel × Bool :=
  (settings f, sampleRegisters f)

/-- The last edge of a sample frame: its last gain pulse ends, and it is no discard frame (R152). -/
def SampleEnds (f : Frx) : Prop := f.seq = .pulseLow ∧ f.tmr = 1 ∧ pulses f.gain ≤ f.k.val + 1 ∧ f.discard = false

section fields
variable (p : Params) (level : Bool) (f : Frx)

theorem pdHoldEnd_held : heldFields (pdHoldEnd p f) = heldFields f := by
  unfold pdHoldEnd; dsimp only; split <;> rfl

theorem puSettleEnd_held : heldFields (puSettleEnd f) = heldFields f := by
  unfold puSettleEnd; dsimp only; split <;> rfl

theorem waitReady_held : heldFields (waitReady p level f) = heldFields f := by
  unfold waitReady; split <;> [rfl; (split <;> rfl)]

theorem bitLowEnd_held : heldFields (bitLowEnd p f) = heldFields f := by
  unfold bitLowEnd; split <;> rfl

/-- A discard frame's end, and a gain pulse that is not the last, write no sample register. -/
theorem pulseLowEnd_held (h : pulses f.gain ≤ f.k.val + 1 → f.discard = true) : heldFields (pulseLowEnd p f) = heldFields f := by
  unfold pulseLowEnd
  split
  next => rfl
  next hk => simp only [frameEnd, recordSample, h (not_lt.mp hk)]; rfl

/-- No phase writes a setting or a sample register but at the end of a sample frame. -/
theorem sequencer_held (h : ¬ SampleEnds f) : heldFields (sequencer p level f) = heldFields f := by
  unfold sequencer
  split
  next => rfl
  next => exact timed_keeps heldFields rfl fun _ => rfl
  next => exact timed_keeps heldFields rfl fun _ => pdHoldEnd_held p f
  next => exact timed_keeps heldFields rfl fun _ => puSettleEnd_held f
  next => exact waitReady_held p level f
  next =>
    obtain ⟨bits, hb⟩ := sampleBit_eq p level f
    rw [hb]
    exact timed_keeps heldFields rfl fun _ => rfl
  next => exact timed_keeps heldFields rfl fun _ => bitLowEnd_held p f
  next => exact timed_keeps heldFields rfl fun _ => rfl
  next hs =>
    refine timed_keeps heldFields rfl fun ht => pulseLowEnd_held p f fun hk => ?_
    exact Bool.eq_true_of_not_eq_false fun hd => h ⟨hs, ht, hk, hd⟩

/-- At the end of a sample frame the sequencer writes all four sample registers and is IDLE (R152). -/
theorem sequencer_of_sampleEnds (h : SampleEnds f) :
    (sequencer p level f).seq = .idle ∧ settings (sequencer p level f) = settings f ∧
      sampleRegisters (sequencer p level f) =
        (dataWord (assemble f.sbits f.bitord f.byteord), rawWord (assemble f.sbits f.bitord f.byteord), f.devg, true) := by
  obtain ⟨hs, ht, hk, hd⟩ := h
  simp [sequencer, hs, timed, ht, pulseLowEnd, not_lt.mpr hk, frameEnd, recordSample, hd, settings, sampleRegisters]

/-- No phase writes CFG, GAIN or TIMEOUT. -/
theorem sequencer_settings : settings (sequencer p level f) = settings f := by
  by_cases h : SampleEnds f
  · obtain ⟨-, hset, -⟩ := sequencer_of_sampleEnds p level f h
    exact hset
  · exact congrArg Prod.fst (sequencer_held p level f h)

end fields

/-- No access to an idle block writes a sample register (R67). -/
theorem idleOutcome_sampleRegisters {p : Params} {f g : Frx} (h : IdleOutcome p f g) : sampleRegisters g = sampleRegisters f := by
  cases h <;> rfl

/-- Settles O43: a busy block takes of an access DONE and OVR at most, and no phase writes a setting. -/
theorem settingsHoldWhileBusy : Obligations.SettingsHoldWhileBusy := by
  unfold Obligations.SettingsHoldWhileBusy
  intro s t hstep hrst hbusy
  obtain ⟨h, -⟩ | ⟨-, -, -, i, got, port, -, rfl⟩ := step_next_cases hstep
  · exact absurd h hrst
  · obtain ⟨d, o, he⟩ := blockEdge_access_busy s.par s.dev.line i hbusy
    have hset := sequencer_settings s.par (din s.par s.dev.line s.frx) s.frx
    simpa [settings, advance, he] using hset

/-- Settles O42: an idle block's access leaves the sample registers, and so does each phase but for the end of a sample frame. -/
theorem onlyASampleWritesTheSampleRegisters : Obligations.OnlyASampleWritesTheSampleRegisters := by
  unfold Obligations.OnlyASampleWritesTheSampleRegisters
  intro s t hstep hrst hchange
  obtain ⟨h, -⟩ | ⟨-, -, -, i, got, port, -, rfl⟩ := step_next_cases hstep
  · exact absurd h hrst
  have changed : sampleRegisters (blockEdge s.par s.dev.line (accessEffect s.par i) s.frx) ≠ sampleRegisters s.frx := by
    intro hsame
    simp only [sampleRegisters, Prod.mk.injEq] at hsame
    obtain ⟨hdata, hraw, hdtag, hvalid⟩ := hsame
    simp [advance, hdata, hraw, hdtag, hvalid] at hchange
  by_cases hs : s.frx.seq = .idle
  · rw [blockEdge_idle hs] at changed
    exact absurd (idleOutcome_sampleRegisters (accessEffect_idle s.par i hs)) changed
  · obtain ⟨d, o, he⟩ := blockEdge_access_busy s.par s.dev.line i hs
    rw [he] at changed
    have ends : SampleEnds s.frx := by_contra fun hn => changed (congrArg Prod.snd (sequencer_held _ _ _ hn))
    obtain ⟨hidle, -, hregs⟩ := sequencer_of_sampleEnds s.par (din s.par s.dev.line s.frx) s.frx ends
    simp only [sampleRegisters, Prod.mk.injEq] at hregs
    obtain ⟨hdata, hraw, hdtag, hvalid⟩ := hregs
    obtain ⟨hseq, htmr, hk, hd⟩ := ends
    refine ⟨hseq, htmr, hk, hd, ?_⟩
    simp [advance, he, hdata, hraw, hdtag, hvalid, hidle]

/-! ## Reads, and a step as an input -/

/-- STATUS[31:16] reads 0 (R24). -/
theorem statusWord_reserved (d : Bool) (f : Frx) : (statusWord d f).extractLsb' 16 16 = 0 := by
  apply BitVec.eq_of_getLsbD_eq
  intro i hi
  simp only [statusWord, BitVec.getLsbD_extractLsb', BitVec.getLsbD_append, BitVec.getLsbD_ofBool]
  interval_cases i <;> simp

/-- CFG as the sum of its flags' weights (R22). -/
theorem cfgWord_eq_sum (f : Frx) :
    cfgWord f = (if f.irqen then 4#32 else 0) + (if f.byteord = .lsbFirst then 2#32 else 0) +
      (if f.bitord = .lsbFirst then 1#32 else 0) := by
  unfold cfgWord
  cases f.irqen <;> cases f.byteord <;> cases f.bitord <;> rfl

/-- In a runnable state an instruction answers, and the host holds what it reads. -/
theorem exec_answers_read (i : Instr) {s : State} (h : Runnable s) : ∃ t, exec i s = .next t ∧ t.lastRead = accessRead s i :=
  ⟨_, exec_runnable i h.1 h.2, rfl⟩

/-- Settles O13: the value read is STATUS of the state before the edge, whose fields the `statusWord` lemmas give. -/
theorem statusReadShowsEveryField : Obligations.StatusReadShowsEveryField := by
  unfold Obligations.StatusReadShowsEveryField
  intro s h
  obtain ⟨t, ht, hread⟩ := exec_answers_read .rdStatus h
  have hword : t.lastRead = statusWord (din s.par s.dev.line s.frx) s.frx := hread
  refine ⟨t, ht, ?_⟩
  rw [hword, statusWord_busy, statusWord_done, statusWord_err, statusWord_pwr, statusWord_gain, statusWord_devg,
    statusWord_dtag, statusWord_valid, statusWord_ovr, statusWord_din, statusWord_sck, statusWord_reserved]
  refine ⟨bne_iff_ne, rfl, ?_, ?_, ?_, ?_, ?_, rfl, rfl, rfl, rfl, rfl⟩
  · cases s.frx.err <;> rfl
  · cases s.frx.pwr <;> simp [powerBit]
  · cases s.frx.gain <;> rfl
  · rcases s.frx.devg with _ | _ | _ | _ <;> rfl
  · rcases s.frx.dtag with _ | _ | _ | _ <;> rfl

/-- Settles O12: each read hands the host its register's value; CFG's is the sum of its flags. -/
theorem readsReturnTheRegisters : Obligations.ReadsReturnTheRegisters := by
  unfold Obligations.ReadsReturnTheRegisters
  intro s h
  refine ⟨?_, exec_answers_read .rdCmd h, exec_answers_read .rdData h, exec_answers_read .rdRaw h,
    exec_answers_read .rdTimeout h, exec_answers_read .rdRsvd6 h, exec_answers_read .rdId h⟩
  obtain ⟨t, ht, hread⟩ := exec_answers_read .rdCfg h
  exact ⟨t, ht, hread.trans (cfgWord_eq_sum s.frx)⟩

/-- Settles O1: a step presents the port's head to the edge, and an idle line where there is none. -/
theorem stepRunsTheNextInput : Obligations.StepRunsTheNextInput := by
  unfold Obligations.StepRunsTheNextInput
  intro s
  have head {x : EdgeInput} (h : s.port.headD .idle = x) : step s = presentInput x s := by
    rw [step, nextInput, h]
  refine ⟨fun w rest hport => ?_, fun rest hport => ?_, fun hport => ?_, fun rest hport => ?_⟩
  · exact head (x := .access w) (by rw [hport]; rfl)
  · exact head (x := .idle) (by rw [hport]; rfl)
  · exact head (x := .idle) (by rw [hport]; rfl)
  · exact head (x := .rst) (by rw [hport]; rfl)

end Sys2Proof.Proofs
end

section
/-! PROOFS of 20_memory.md. What an access answers beside the edge with no access: the whole block where it is idle, DONE and
OVR at most where the access writes no more. -/

namespace Sys2Proof.Proofs

open Sys2Proof.Machine Sys2Proof.Safety Sys2Proof.Laws

/-! ## An access beside the edge with no access -/

theorem idleEdge_runnable {s : State} (h : Runnable s) : idleEdge s = .next (advance (fun f => f) s.lastRead s) :=
  clockEdge_runnable h.1 h.2

/-- An idle block answers with the access's effect, and its synchronizer shifted (R111). -/
theorem answers_of_idle (i : Instr) {s : State} {block : Frx} (h : Runnable s) (hs : s.frx.seq = .idle)
    (effect : { accessEffect s.par i s.frx with sync := shiftedSync s } = block) :
    Answers i s block (accessRead s i) := by
  have hblock : blockEdge s.par s.dev.line (accessEffect s.par i) s.frx = block := (blockEdge_idle hs).trans effect
  rw [Answers, exec_runnable i h.1 h.2, advance, hblock]

/-- An access that writes DONE and OVR alone leaves the rest of the edge as it was; a completion at it sets DONE (R66, R212). -/
theorem blockEdge_of_flags (p : Params) (line : Bool) {host : Frx → Frx} {f : Frx} {done ovr : Bool}
    (hflags : host f = { f with done := done, ovr := ovr }) :
    blockEdge p line host f =
      { blockEdge p line (fun f => f) f with
        done := if f.seq ≠ .idle ∧ (blockEdge p line (fun f => f) f).seq = .idle then true else done
        ovr := ovr } := by
  by_cases hs : f.seq = .idle
  · simp [blockEdge_idle hs, hflags, hs]
  · simp [blockEdge_busy hs, hflags, sequencer_flagsApart p _ f done ovr hs, hs]

theorem blockEdge_noAccess_done (p : Params) (line : Bool) (f : Frx) :
    (blockEdge p line (fun f => f) f).done =
      if f.seq ≠ .idle ∧ (blockEdge p line (fun f => f) f).seq = .idle then true else f.done :=
  congrArg Frx.done (blockEdge_of_flags p line (host := fun f => f) (f := f) (done := f.done) (ovr := f.ovr) rfl)

theorem blockEdge_noAccess_ovr (p : Params) (line : Bool) (f : Frx) :
    (blockEdge p line (fun f => f) f).ovr = f.ovr := by
  rw [blockEdge_of_flags p line (host := fun f => f) (f := f) (done := f.done) (ovr := f.ovr) rfl]

/-- Two blocks that differ in DONE and OVR show the device one clock line. -/
theorem advance_of_flags {host : Frx → Frx} (got : Word) {s : State} {done ovr : Bool}
    (hblock : blockEdge s.par s.dev.line host s.frx =
      { blockEdge s.par s.dev.line (fun f => f) s.frx with done := done, ovr := ovr }) :
    advance host got s =
      { advance (fun f => f) got s with frx := { (advance (fun f => f) got s).frx with done := done, ovr := ovr } } := by
  simp [advance, hblock]

/-! ## Reads -/

theorem accessEffect_readOf (p : Params) (r : Reg) : accessEffect p (Decode.readOf r) = fun f => f := by
  cases r <;> rfl

theorem accessRead_readOf (s : State) (r : Reg) : accessRead s (Decode.readOf r) = rdata s r := by
  cases r <;> rfl

/-- Settles O14: a read is an edge with no access, and at that edge only a completion touches DONE, and nothing OVR. -/
theorem readsChangeNothing : Obligations.ReadsChangeNothing := by
  unfold Obligations.ReadsChangeNothing
  intro s r h
  have hread := exec_runnable (Decode.readOf r) h.1 h.2
  rw [accessEffect_readOf, accessRead_readOf] at hread
  refine ⟨_, _, hread, idleEdge_runnable h, rfl, fun hs => ?_, fun hs => ⟨?_, ?_⟩⟩
  · exact blockEdge_idle (p := s.par) (line := s.dev.line) (host := fun f => f) hs
  · exact blockEdge_noAccess_ovr s.par s.dev.line s.frx
  · exact (blockEdge_noAccess_done s.par s.dev.line s.frx).trans (if_congr (and_iff_right hs) rfl rfl)

/-! ## Writes to STATUS and to the read-only registers -/

/-- Settles O17: a STATUS write writes DONE and OVR alone. -/
theorem wrStatusClearsWhatItNames : Obligations.WrStatusClearsWhatItNames := by
  unfold Obligations.WrStatusClearsWhatItNames
  intro s v h
  have hblock := blockEdge_of_flags s.par s.dev.line (host := clearStatus v) (f := s.frx) rfl
  refine ⟨_, _, exec_runnable (.wrStatus v) h.1 h.2, idleEdge_runnable h, _, _, advance_of_flags _ hblock, ?_, ?_⟩
  · cases v.getLsbD 1 <;> simp
  · cases v.getLsbD 13 <;> simp

/-- Settles O18: the four writes have no effect on the block, so each is the edge with no access. -/
theorem writesToReadOnlyRegistersDoNothing : Obligations.WritesToReadOnlyRegistersDoNothing := by
  unfold Obligations.WritesToReadOnlyRegistersDoNothing
  intro s v i h hi
  refine ⟨_, ?_, idleEdge_runnable h⟩
  simp only [List.mem_cons, List.not_mem_nil, or_false] at hi
  obtain rfl | rfl | rfl | rfl := hi <;> exact exec_runnable _ h.1 h.2

/-! ## Writes to CFG, TIMEOUT and CMD -/

/-- Settles O15: the effect of the write is the three bits. -/
theorem wrCfgTakesItsThreeBits : Obligations.WrCfgTakesItsThreeBits := by
  unfold Obligations.WrCfgTakesItsThreeBits
  intro s v h hs
  exact answers_of_idle (.wrCfg v) h hs (by rw [accessEffect, writeWhenIdle_idle hs]; rfl)

/-- Settles O16: the effect of the write is the value. -/
theorem wrTimeoutTakesTheValue : Obligations.WrTimeoutTakesTheValue := by
  unfold Obligations.WrTimeoutTakesTheValue
  intro s v h hs
  exact answers_of_idle (.wrTimeout v) h hs (by rw [accessEffect, writeWhenIdle_idle hs]; rfl)

/-- Every instruction drives the pattern of its row (R99). -/
theorem portPattern (i : Instr) : PortPattern.Statement i := by
  cases i
  case nop | acquire | setGain | badGain | powerDown | powerUp | resetDev | illegalOp6 | illegalOp7 =>
    exact PortPattern.of_commandWord _
  all_goals exact PortPattern.of_busAccess _ _

/-- A write of CFG, CMD or TIMEOUT waits for an idle block (R65), whichever instruction spells it. -/
theorem accessEffect_of_idleOnlyIndex (p : Params) {i : Instr} (hwr : (portSignals (encode i)).wrEn = true)
    (haddr : (portSignals (encode i)).addr ∈ [(0 : BitVec 3), 1, 5]) :
    (∃ effect, accessEffect p i = writeWhenIdle effect) ∧ ∀ s, accessRead s i = s.lastRead := by
  have hrow : PortPattern.rowPattern i ∈ [0b1000#4, 0b1001, 0b1101] := by
    have hpattern := portPattern i
    rw [PortPattern.Statement, hwr] at hpattern
    rw [← hpattern]
    generalize (portSignals (encode i)).addr = index at haddr
    revert index
    decide
  cases i
  case rdCfg | rdCmd | rdStatus | rdData | rdRaw | rdTimeout | rdRsvd6 | rdId => simp [PortPattern.rowPattern] at hrow
  case wrStatus | wrData | wrRaw | wrRsvd6 | wrId => simp [PortPattern.rowPattern] at hrow
  all_goals exact ⟨⟨_, rfl⟩, fun _ => rfl⟩

/-- Settles O19: such a write waits for an idle block, and of a busy one it writes OVR alone. -/
theorem busyWritesAreDropped : Obligations.BusyWritesAreDropped := by
  unfold Obligations.BusyWritesAreDropped
  intro s i h hbusy hwr haddr
  obtain ⟨⟨effect, heffect⟩, hread⟩ := accessEffect_of_idleOnlyIndex s.par hwr haddr
  have hblock := blockEdge_of_flags s.par s.dev.line (host := writeWhenIdle effect) (writeWhenIdle_busy hbusy)
  rw [← blockEdge_noAccess_done] at hblock
  have hexec := exec_runnable i h.1 h.2
  rw [heffect, hread] at hexec
  exact ⟨_, _, hexec, idleEdge_runnable h, advance_of_flags _ hblock⟩

/-! ## The outcome of a command word -/

/-- A field of a word is 0 exactly where the word has no bit of the field's mask. -/
theorem extractLsb'_eq_zero_iff_mask {start len : Nat} (mask v : Word)
    (hmask : ∀ i < 32, mask.getLsbD i = decide (start ≤ i ∧ i < start + len)) :
    v.extractLsb' start len = 0#len ↔ v &&& mask = 0#32 := by
  simp only [BitVec.zero_iff_eq_false, BitVec.getLsbD_extractLsb', BitVec.getLsbD_and]
  constructor
  · intro h i
    by_cases hi : i < 32
    · rw [hmask i hi]
      have hbit := h (i - start)
      grind
    · simp [BitVec.getLsbD_of_ge v i (by omega)]
  · intro h i
    by_cases hi : start + i < 32
    · have hbit := h (start + i)
      rw [hmask _ hi] at hbit
      grind
    · simp [BitVec.getLsbD_of_ge v (start + i) (by omega)]

theorem cmdOp_toNat (v : Word) : (cmdOp v).toNat = v.toNat % 8 := by
  simp [cmdOp]

theorem cmdGsel_eq_zero_iff (v : Word) : cmdGsel v = 0 ↔ v &&& 0x00000030 = 0 :=
  extractLsb'_eq_zero_iff_mask 0x00000030 v (by decide)

/-- RES is in two places, bits [31:6] and bit 3 (R90). -/
theorem cmdRes_eq_zero_iff (v : Word) : cmdRes v = 0 ↔ v &&& 0xFFFFFFC8 = 0 := by
  have hparts : cmdRes v = 0 ↔ v.extractLsb' 6 26 = 0#26 ∧ v.extractLsb' 3 1 = 0#1 := by
    rw [cmdRes, ← BitVec.toNat_inj, BitVec.toNat_append]
    simp [Nat.or_eq_zero_iff, ← BitVec.toNat_inj]
  rw [hparts, extractLsb'_eq_zero_iff_mask 0xFFFFFFC0 v (by decide), extractLsb'_eq_zero_iff_mask 0x00000008 v (by decide),
    ← BitVec.or_eq_zero_iff, ← BitVec.and_or_distrib_left]
  rfl

/-- R90's first three rules, in the word's bits. -/
theorem verdict_illegal_of_bits {v : Word}
    (h : 6 ≤ v.toNat % 8 ∨ v &&& 0xFFFFFFC8 ≠ 0 ∨ (v.toNat % 8 ≠ 2 ∧ v &&& 0x00000030 ≠ 0)) : verdict v = .illegal := by
  rw [← cmdOp_toNat, ne_eq, ne_eq, ne_eq, ← cmdRes_eq_zero_iff, ← cmdGsel_eq_zero_iff] at h
  unfold verdict
  obtain hop | hres | ⟨hop, hgsel⟩ := h
  · have h67 : cmdOp v = 6 ∨ cmdOp v = 7 := by bv_omega
    rw [if_pos h67]
  · rw [if_pos hres, ite_self]
  · have hfields : cmdOp v ≠ 2 ∧ cmdGsel v ≠ 0 := ⟨fun he => hop (congrArg BitVec.toNat he), hgsel⟩
    rw [if_pos hfields, ite_self, ite_self]

/-- The three SET_GAIN words (R91). -/
theorem verdict_setGain {v : Word} {g : GainChannel}
    (h : (v, g) ∈ [((0x00000002 : Word), GainChannel.g128), (0x00000012, .g64), (0x00000022, .g32)]) :
    verdict v = .setGain g := by
  simp only [List.mem_cons, List.not_mem_nil, or_false, Prod.mk.injEq] at h
  obtain ⟨rfl, rfl⟩ | ⟨rfl, rfl⟩ | ⟨rfl, rfl⟩ := h <;> rfl

/-- An idle block answers a CMD write with the start step of the word's verdict (R64). -/
theorem wrCmd_answers (d : Verdict) {v : Word} (hv : verdict v = d) {s : State} {started block : Frx} (h : Runnable s)
    (hs : s.frx.seq = .idle) (hstart : startVerdict s.par d s.frx = started)
    (hblock : { started with sync := shiftedSync s } = block) : Answers (.wrCmd v) s block s.lastRead :=
  answers_of_idle (.wrCmd v) h hs (by rw [accessEffect, writeWhenIdle_idle hs, hv, hstart, hblock])

/-- Settles O20: each word has one verdict, and the verdict's start step in each power state is the block written out. -/
theorem wrCmdTakesTheOutcomeOfItsWord : Obligations.WrCmdTakesTheOutcomeOfItsWord := by
  unfold Obligations.WrCmdTakesTheOutcomeOfItsWord
  intro s v h hs
  refine ⟨fun hv => wrCmd_answers .illegal (verdict_illegal_of_bits hv) h hs rfl rfl,
    ?badGain, ?nop, ?acquire, ?acquireDown, ?setGain, ?powerDown, ?powerDownDown, ?powerUp, ?resetDev, ?resetDevDown⟩
  case badGain => rintro rfl; exact wrCmd_answers .badGain rfl h hs rfl rfl
  case nop => rintro rfl; exact wrCmd_answers .nop rfl h hs rfl rfl
  case acquire => rintro rfl hp; exact wrCmd_answers .acquire rfl h hs (startAcquire_active hp) rfl
  case acquireDown => rintro rfl hp; exact wrCmd_answers .acquire rfl h hs (startAcquire_poweredDown hp) rfl
  case setGain =>
    intro g hg
    have hv := verdict_setGain hg
    exact ⟨fun hp => wrCmd_answers (.setGain g) hv h hs (startSetGain_active g hp) rfl,
      fun hp => wrCmd_answers (.setGain g) hv h hs (startSetGain_poweredDown g hp) rfl⟩
  case powerDown => rintro rfl hp; exact wrCmd_answers .powerDown rfl h hs (startPowerDown_active s.par hp) rfl
  case powerDownDown => rintro rfl hp; exact wrCmd_answers .powerDown rfl h hs (startPowerDown_poweredDown s.par hp) rfl
  case powerUp => rintro rfl; exact wrCmd_answers .powerUp rfl h hs rfl rfl
  case resetDev => rintro rfl hp; exact wrCmd_answers .resetDev rfl h hs (startResetDev_active s.par hp) rfl
  case resetDevDown => rintro rfl hp; exact wrCmd_answers .resetDev rfl h hs (startResetDev_poweredDown s.par hp) rfl

end Sys2Proof.Proofs
end

section
/-! PROOFS of 30_encoding.md, part one. Encoder and decoder: which word an instruction is, what a word decodes to, and which
verdict each command word gets. -/

namespace Sys2Proof.Proofs

open Sys2Proof.Machine Sys2Proof.Safety Sys2Proof.Laws

/-! ## The fields of a command word -/

theorem cmdOp_opWord (rest : BitVec 29) (op : BitVec 3) : cmdOp (Encode.opWord rest op) = op :=
  BitVec.extractLsb'_append_eq_right

theorem rest_opWord (rest : BitVec 29) (op : BitVec 3) : (Encode.opWord rest op).extractLsb' 3 29 = rest :=
  BitVec.extractLsb'_append_eq_left

theorem opWord_fields (w : Word) : Encode.opWord (w.extractLsb' 3 29) (cmdOp w) = w :=
  BitVec.extractLsb'_append_extractLsb' (w := 29) (len := 3)

/-- The word with nothing but GSEL and OP set (R92). -/
def plainWord (gsel : BitVec 2) (op : BitVec 3) : Word := 0#26 ++ gsel ++ 0#1 ++ op

/-- A word with no reserved bit set is its GSEL and its OP. -/
theorem plainWord_fields {v : Word} (h : v &&& 0xFFFFFFC8 = 0) : plainWord (cmdGsel v) (cmdOp v) = v := by
  have hhigh : v.extractLsb' 6 26 = 0#26 := by
    rw [extractLsb'_eq_zero_iff_mask 0xFFFFFFC0 v (by decide)]
    exact (BitVec.and_assoc v 0xFFFFFFC8 0xFFFFFFC0).symm.trans (by rw [h]; rfl)
  have hbit3 : v.extractLsb' 3 1 = 0#1 := by
    rw [extractLsb'_eq_zero_iff_mask 0x00000008 v (by decide)]
    exact (BitVec.and_assoc v 0xFFFFFFC8 0x00000008).symm.trans (by rw [h]; rfl)
  simp only [plainWord, ← hhigh, ← hbit3, cmdGsel, cmdOp, BitVec.extractLsb'_append_extractLsb'_eq_extractLsb']
  exact BitVec.extractLsb'_eq_self

/-! ## The rows of the command table -/

theorem rowFits_iff {r : CmdRow} {w : Word} : Decode.rowFits r w = true ↔ w &&& r.mask = r.pattern := beq_iff_eq

/-- A row that fixes every bit fits its pattern alone (R91). -/
theorem eq_of_rowFits_full {r : CmdRow} {w : Word} (hmask : r.mask = 0xFFFFFFFF) (h : Decode.rowFits r w = true) :
    w = r.pattern := by
  rw [rowFits_iff, hmask] at h
  exact (BitVec.and_allOnes (x := w)).symm.trans h

/-- Every row fixes OP (R92). -/
theorem cmdOp_of_rowFits {r : CmdRow} (hr : r ∈ Decode.cmdRows) {w : Word} (h : Decode.rowFits r w = true) :
    cmdOp w = cmdOp r.pattern := by
  have hmask : ∀ r ∈ Decode.cmdRows, cmdOp r.mask = BitVec.allOnes 3 := by decide
  calc cmdOp w = cmdOp w &&& cmdOp r.mask := by rw [hmask r hr, BitVec.and_allOnes]
    _ = cmdOp (w &&& r.mask) := BitVec.extractLsb'_and.symm
    _ = cmdOp r.pattern := by rw [rowFits_iff.mp h]

theorem rowFits_of_op_ne {r : CmdRow} (hr : r ∈ Decode.cmdRows) {w : Word} (h : cmdOp w ≠ cmdOp r.pattern) :
    Decode.rowFits r w = false :=
  Bool.not_eq_true _ ▸ fun hfit => h (cmdOp_of_rowFits hr hfit)

/-- A row that fixes OP alone fits every word of its OP (R94). -/
theorem rowFits_of_op {r : CmdRow} {op : BitVec 3} (hmask : r.mask = 7) (hpattern : r.pattern = op.zeroExtend 32) {w : Word}
    (h : cmdOp w = op) : Decode.rowFits r w = true := by
  rw [rowFits_iff, hmask, hpattern, ← h, ← BitVec.toNat_inj, BitVec.toNat_and, BitVec.toNat_setWidth, cmdOp_toNat]
  exact (Nat.and_two_pow_sub_one_eq_mod w.toNat 3).trans (by omega)

/-- SET_GAIN's row leaves GSEL free, and nothing else (R91). -/
theorem eq_of_rowFits_setGain {w : Word} (h : Decode.rowFits Decode.setGainRow w = true) :
    w = 0x00000002 + ((cmdGsel w).zeroExtend 32 <<< 4) := by
  have hop : cmdOp w = 2 := cmdOp_of_rowFits (by decide) h
  have hres : w &&& 0xFFFFFFC8 = 0 := by
    rw [rowFits_iff] at h
    exact (BitVec.and_assoc w 0xFFFFFFCF 0xFFFFFFC8).symm.trans (congrArg (· &&& 0xFFFFFFC8) h)
  have hplain : ∀ gsel : BitVec 2, plainWord gsel 2 = 0x00000002 + (gsel.zeroExtend 32 <<< 4) := by decide
  rw [← hplain, ← hop, plainWord_fields hres]

/-- OP 6 and OP 7 are no legal row's (R94). -/
theorem rowFits_of_illegal_op {w : Word} (h : cmdOp w = 6 ∨ cmdOp w = 7) :
    ∀ r ∈ Decode.cmdRows.take 7, Decode.rowFits r w = false := by
  intro r hr
  have hop : ∀ r ∈ Decode.cmdRows.take 7, cmdOp r.pattern ≠ 6 ∧ cmdOp r.pattern ≠ 7 := by decide
  obtain ⟨hsix, hseven⟩ := hop r hr
  refine rowFits_of_op_ne (List.mem_of_mem_take hr) ?_
  obtain hw | hw := h
  · exact hw ▸ hsix.symm
  · exact hw ▸ hseven.symm

theorem cmdWord_of_op_six {w : Word} (h : cmdOp w = 6) : Decode.cmdWord w = .illegalOp6 (w.extractLsb' 3 29) := by
  have hlegal := rowFits_of_illegal_op (.inl h)
  have hfits : Decode.rowFits Decode.illegalOp6Row w = true := rowFits_of_op (op := 6) rfl rfl h
  simp only [Decode.cmdRows, List.take, List.forall_mem_cons] at hlegal
  simp [Decode.cmdWord, hlegal, hfits]

theorem cmdWord_of_op_seven {w : Word} (h : cmdOp w = 7) : Decode.cmdWord w = .illegalOp7 (w.extractLsb' 3 29) := by
  have hlegal := rowFits_of_illegal_op (.inr h)
  have hsix : Decode.rowFits Decode.illegalOp6Row w = false := rowFits_of_op_ne (by decide) (by rw [h]; decide)
  have hfits : Decode.rowFits Decode.illegalOp7Row w = true := rowFits_of_op (op := 7) rfl rfl h
  simp only [Decode.cmdRows, List.take, List.forall_mem_cons] at hlegal
  simp [Decode.cmdWord, hlegal, hsix, hfits]

/-- What a command word decodes to encodes as that word, but for a word no row fits, which is a CMD write (R99). -/
theorem encode_cmdWord (w : Word) : encode (Decode.cmdWord w) = .cmd32 w ∨ Decode.cmdWord w = .wrCmd w := by
  unfold Decode.cmdWord
  split_ifs with hnop hacquire hbadGain hsetGain hdown hup hreset hop6 hop7
  · exact .inl (congrArg HostWord.cmd32 (eq_of_rowFits_full rfl hnop).symm)
  · exact .inl (congrArg HostWord.cmd32 (eq_of_rowFits_full rfl hacquire).symm)
  · exact .inl (congrArg HostWord.cmd32 (eq_of_rowFits_full rfl hbadGain).symm)
  · exact .inl (congrArg HostWord.cmd32 (eq_of_rowFits_setGain hsetGain).symm)
  · exact .inl (congrArg HostWord.cmd32 (eq_of_rowFits_full rfl hdown).symm)
  · exact .inl (congrArg HostWord.cmd32 (eq_of_rowFits_full rfl hup).symm)
  · exact .inl (congrArg HostWord.cmd32 (eq_of_rowFits_full rfl hreset).symm)
  · have hop : cmdOp w = 6 := cmdOp_of_rowFits (by decide) hop6
    exact .inl (congrArg HostWord.cmd32 (hop ▸ opWord_fields w))
  · have hop : cmdOp w = 7 := cmdOp_of_rowFits (by decide) hop7
    exact .inl (congrArg HostWord.cmd32 (hop ▸ opWord_fields w))
  · exact .inr rfl

/-! ## Bus accesses -/

theorem encode_readOf (reg : Reg) : encode (Decode.readOf reg) = .busop (Encode.pattern false reg) 0 := by
  cases reg <;> rfl

theorem encode_writeOf (reg : Reg) (v : Word) : encode (Decode.writeOf v reg) = .busop (Encode.pattern true reg) v := by
  cases reg <;> rfl

/-- Every pattern is that of an access. -/
theorem pattern_fields (pattern : BitVec 4) :
    Encode.pattern (pattern.getLsbD 3) (Decode.regAt (pattern.extractLsb' 0 3)) = pattern := by
  revert pattern
  decide

/-- Of a bus access, only the write data of a read is lost. -/
theorem encode_busAccess (pattern : BitVec 4) (v : Word) :
    encode (Decode.busAccess pattern v) = .busop pattern (if pattern.getLsbD 3 then v else 0) := by
  have hpattern := pattern_fields pattern
  unfold Decode.busAccess
  cases hw : pattern.getLsbD 3 with
  | false =>
    rw [hw] at hpattern
    exact (encode_readOf _).trans (by rw [hpattern]; rfl)
  | true =>
    rw [hw] at hpattern
    exact (encode_writeOf _ v).trans (by rw [hpattern]; rfl)

/-! ## Decode and encode -/

/-- Settles O3: a row's word meets its own row first, and a bus access is its pattern. -/
theorem decodeOfEncodeIsTheInstruction : Obligations.DecodeOfEncodeIsTheInstruction := by
  unfold Obligations.DecodeOfEncodeIsTheInstruction
  intro i hwf
  cases i
  case nop | acquire | badGain | powerDown | powerUp | resetDev => rfl
  case setGain gsel =>
    have hcode : gsel ≠ 3 := bne_iff_ne.mp hwf
    revert gsel
    decide
  case illegalOp6 rest => exact (cmdWord_of_op_six (cmdOp_opWord rest 6)).trans (by rw [rest_opWord])
  case illegalOp7 rest => exact (cmdWord_of_op_seven (cmdOp_opWord rest 7)).trans (by rw [rest_opWord])
  case rdCfg | rdCmd | rdStatus | rdData | rdRaw | rdTimeout | rdRsvd6 | rdId => rfl
  case wrCfg | wrCmd | wrStatus | wrData | wrRaw | wrTimeout | wrRsvd6 | wrId => rfl

/-- Settles O4: a command word is the data of a CMD write either way, and a bus access keeps its pattern and a write's data. -/
theorem encodeOfDecodeDrivesTheSamePort : Obligations.EncodeOfDecodeDrivesTheSamePort := by
  unfold Obligations.EncodeOfDecodeDrivesTheSamePort
  intro w
  cases w with
  | cmd32 word =>
    obtain hrow | hwrite := encode_cmdWord word
    · rw [decode, hrow]
      exact ⟨rfl, rfl, fun _ => rfl⟩
    · rw [decode, hwrite]
      exact ⟨rfl, rfl, fun _ => rfl⟩
  | busop pattern wdata =>
    rw [decode, encode_busAccess]
    exact ⟨rfl, rfl, fun hw => if_pos hw⟩

/-- Settles O7: each word meets its row, or has a bit its format lacks. -/
theorem tableWordsDecodeToTheirRows : Obligations.TableWordsDecodeToTheirRows := by
  unfold Obligations.TableWordsDecodeToTheirRows
  decide

/-! ## The verdict -/

/-- The nine words R91 and R94 list, with their verdicts. -/
def listedVerdicts : List (Word × Verdict) :=
  [(0x00000000, .nop), (0x00000001, .acquire), (0x00000002, .setGain .g128), (0x00000012, .setGain .g64),
    (0x00000022, .setGain .g32), (0x00000032, .badGain), (0x00000003, .powerDown), (0x00000004, .powerUp),
    (0x00000005, .resetDev)]

/-- R90's first three rules, in the word's bits. -/
def IllegalBits (v : Word) : Prop :=
  6 ≤ v.toNat % 8 ∨ v &&& 0xFFFFFFC8 ≠ 0 ∨ (v.toNat % 8 ≠ 2 ∧ v &&& 0x00000030 ≠ 0)

/-- A word that meets none of the three is one of the nine. -/
theorem verdict_listed {v : Word} (h : ¬ IllegalBits v) : (v, verdict v) ∈ listedVerdicts := by
  obtain ⟨hop, hres, hgsel⟩ : (cmdOp v).toNat < 6 ∧ v &&& 0xFFFFFFC8 = 0 ∧ ((cmdOp v).toNat ≠ 2 → cmdGsel v = 0) := by
    rw [cmdOp_toNat, cmdGsel_eq_zero_iff]
    simpa only [IllegalBits, not_or, not_and, not_le, not_not] using h
  rw [← plainWord_fields hres]
  generalize cmdOp v = op at *
  generalize cmdGsel v = gsel at *
  clear hres h
  revert op gsel
  decide

theorem verdict_illegal_iff {v : Word} : verdict v = .illegal ↔ IllegalBits v := by
  refine ⟨fun hv => ?_, verdict_illegal_of_bits⟩
  by_contra hbits
  have hlisted := verdict_listed hbits
  rw [hv] at hlisted
  simp [listedVerdicts] at hlisted

theorem verdict_legal_iff {v : Word} {d : Verdict} (hd : d ≠ .illegal) : verdict v = d ↔ (v, d) ∈ listedVerdicts := by
  constructor
  · rintro rfl
    exact verdict_listed (mt verdict_illegal_iff.mpr hd)
  · have hall : ∀ row ∈ listedVerdicts, verdict row.1 = row.2 := by decide
    exact hall (v, d)

/-- Settles O6: a word meets R90's first three rules, or is one of nine. -/
theorem verdictOfEveryCommandWord : Obligations.VerdictOfEveryCommandWord := by
  unfold Obligations.VerdictOfEveryCommandWord
  intro v
  refine ⟨verdict_illegal_iff, ?_⟩
  simp [verdict_legal_iff, listedVerdicts]

/-! ## What a command word does -/

/-- SET_GAIN's word does what its code says, code 3 being BADGAIN's word (R91, R94). -/
theorem startVerdict_setGainWord (p : Params) (gsel : BitVec 2) :
    startVerdict p (verdict (0x00000002 + (gsel.zeroExtend 32 <<< 4))) = startSetGainCode gsel := by
  have hcode : ∀ gsel : BitVec 2, gsel = 0 ∨ gsel = 1 ∨ gsel = 2 ∨ gsel = 3 := by decide
  obtain rfl | rfl | rfl | rfl := hcode gsel <;> rfl

/-- A word of OP 6 or 7 is illegal (R94). -/
theorem verdict_opWord (rest : BitVec 29) {op : BitVec 3} (h : 6 ≤ op.toNat) : verdict (Encode.opWord rest op) = .illegal :=
  verdict_illegal_of_bits (.inl (by rwa [← cmdOp_toNat, cmdOp_opWord]))

/-- An instruction that is a command word has the access of a CMD write of that word. -/
theorem access_of_cmd32 (s : State) {i : Instr} {w : Word} (h : encode i = .cmd32 w) :
    accessEffect s.par i = accessEffect s.par (.wrCmd w) ∧ accessRead s i = accessRead s (.wrCmd w) := by
  cases i
  case rdCfg | rdCmd | rdStatus | rdData | rdRaw | rdTimeout | rdRsvd6 | rdId => simp [encode] at h
  case wrCfg | wrCmd | wrStatus | wrData | wrRaw | wrTimeout | wrRsvd6 | wrId => simp [encode] at h
  all_goals obtain rfl := HostWord.cmd32.inj h
  case nop | acquire | badGain | powerDown | powerUp | resetDev => exact ⟨rfl, rfl⟩
  case setGain gsel => exact ⟨by rw [accessEffect, accessEffect, startVerdict_setGainWord], rfl⟩
  case illegalOp6 rest => exact ⟨by rw [accessEffect, accessEffect, verdict_opWord rest (by decide)]; rfl, rfl⟩
  case illegalOp7 rest => exact ⟨by rw [accessEffect, accessEffect, verdict_opWord rest (by decide)]; rfl, rfl⟩

/-- Settles O5: where a row fits, its instruction is that very word; where none does, the word decodes to its CMD write. -/
theorem commandWordsActAsTheirCmdWrite : Obligations.CommandWordsActAsTheirCmdWrite := by
  unfold Obligations.CommandWordsActAsTheirCmdWrite
  intro w s
  obtain hrow | hwrite := encode_cmdWord w
  · obtain ⟨heffect, hread⟩ := access_of_cmd32 s hrow
    rw [exec_is_clockEdge, exec_is_clockEdge (.wrCmd w), decode, heffect, hread]
  · rw [decode, hwrite]

/-- Settles O24: each of the two runs BADGAIN's start step. -/
theorem badGainCompletesAtOnce : Obligations.BadGainCompletesAtOnce := by
  unfold Obligations.BadGainCompletesAtOnce
  intro s i h hs hi
  simp only [List.mem_cons, List.not_mem_nil, or_false] at hi
  obtain rfl | rfl := hi
  · exact answers_of_idle .badGain h hs (by rw [accessEffect, writeWhenIdle_idle hs]; rfl)
  · exact answers_of_idle (.setGain 3) h hs (by rw [accessEffect, writeWhenIdle_idle hs]; rfl)

/-- Settles O25: each of the three runs the illegal word's start step. -/
theorem illegalWordsCompleteAtOnce : Obligations.IllegalWordsCompleteAtOnce := by
  unfold Obligations.IllegalWordsCompleteAtOnce
  rintro s i h hs (⟨rest, rfl⟩ | ⟨rest, rfl⟩ | ⟨v, hv, rfl⟩)
  · exact answers_of_idle (.illegalOp6 rest) h hs (by rw [accessEffect, writeWhenIdle_idle hs]; rfl)
  · exact answers_of_idle (.illegalOp7 rest) h hs (by rw [accessEffect, writeWhenIdle_idle hs]; rfl)
  · exact wrCmd_answers .illegal hv h hs rfl rfl

end Sys2Proof.Proofs
end

section
/-! PROOFS of 30_encoding.md, part two. Edges with no access and `POLL`, and what the host's program lines become. -/

namespace Sys2Proof.Proofs

open Sys2Proof.Machine Sys2Proof.Safety Sys2Proof.Laws

/-- Settles O2: with no access an idle block takes only the synchronizer's shift. -/
theorem idleEdgeOnlyShiftsTheSynchronizer : Obligations.IdleEdgeOnlyShiftsTheSynchronizer := by
  unfold Obligations.IdleEdgeOnlyShiftsTheSynchronizer
  intro s h hs
  rw [idleEdge_runnable h, advance, blockEdge_idle hs]
  rfl

/-- A `POLL` is its register's read, after which the port keeps the line unless the field matches (R102). -/
theorem pollEdge_runnable (field : Field) (value : Nat) {s : State} (h : Runnable s) :
    pollEdge field value s = .next
      { advance (fun f => f) (rdata s (fieldReg field)) s with
        port := if fieldValue field (rdata s (fieldReg field)) = value then s.port.tail else s.port } := by
  rw [pollEdge, exec_runnable _ h.1 h.2, accessEffect_readOf, accessRead_readOf]
  by_cases hmatch : fieldValue field (rdata s (fieldReg field)) = value
  · exact congrArg _ ((if_pos hmatch).trans (by rw [if_pos hmatch]; rfl))
  · exact congrArg _ ((if_neg hmatch).trans (by rw [if_neg hmatch]))

/-- Settles O59: the read has no effect on the block, so block and device see the edge with no access. -/
theorem pollReadsUntilTheFieldMatches : Obligations.PollReadsUntilTheFieldMatches := by
  unfold Obligations.PollReadsUntilTheFieldMatches
  intro s field value rest h hport
  have hstep : step s = pollEdge field value s := by rw [step, nextInput, hport]; rfl
  refine ⟨_, _, hstep.trans (pollEdge_runnable field value h), idleEdge_runnable h, rfl, rfl, rfl,
    fun hmatch => ?_, fun hmiss => ?_⟩
  · exact (if_pos hmatch).trans (by rw [hport]; rfl)
  · exact if_neg hmiss

/-! ## The assembler -/

/-- CMDW is its CMD and WAITDONE, refused where the CMD is (R103). -/
theorem assembleLine_cmdw (name : CmdName) (g : Option Nat) :
    assembleLine (.cmdw name g) = (assembleLine (.cmd name g)).map (· ++ waitDoneLines) := by
  unfold assembleLine
  rw [Option.map_map]
  rfl

/-- Settles O60, line by line. -/
theorem pseudoInstructionsAssemble : Obligations.PseudoInstructionsAssemble := by
  unfold Obligations.PseudoInstructionsAssemble
  refine ⟨?setGain, rfl, ?gainElsewhere, ?words, rfl, assembleLine_cmdw, rfl, rfl, rfl, rfl⟩
  case setGain =>
    intro factor
    rw [assembleLine, commandWord, gainOfFactor]
    split_ifs <;> rfl
  case gainElsewhere =>
    intro name factor hname
    cases name with
    | setGain => exact absurd rfl hname
    | nop | acquire | powerDown | powerUp | resetDev => rfl
  case words =>
    intro name word hrow
    simp only [List.mem_cons, Prod.mk.injEq, List.not_mem_nil, or_false] at hrow
    obtain ⟨rfl, rfl⟩ | ⟨rfl, rfl⟩ | ⟨rfl, rfl⟩ | ⟨rfl, rfl⟩ | ⟨rfl, rfl⟩ := hrow <;> rfl

end Sys2Proof.Proofs
end

section
/-! PROOFS of 41_bit_transport.md, part one. The bit transport's phases, each at one edge with any access. -/

namespace Sys2Proof.Proofs

open Sys2Proof.Machine Sys2Proof.Safety Sys2Proof.Laws

/-! ## The sequencer, phase by phase -/

/-- The bit array after an edge: only BIT_HIGH's sample edge writes it (R120). -/
def sampledBits (p : Params) (level : Bool) (f : Frx) : SerialBits :=
  if f.seq = .bitHigh ∧ p.tHigh + 1 = p.tSample + f.tmr then f.sbits.set f.n level else f.sbits

section phases
variable {p : Params} {level : Bool} {f : Frx}

theorem sampleBit_eq_sampledBits (hs : f.seq = .bitHigh) : sampleBit p level f = { f with sbits := sampledBits p level f } := by
  by_cases hsample : p.tHigh + 1 = p.tSample + f.tmr
  · rw [sampleBit, if_pos hsample, sampledBits, if_pos ⟨hs, hsample⟩]
  · rw [sampleBit, if_neg hsample, sampledBits, if_neg fun h => hsample h.2]

/-- Above its last cycle a timed phase counts, and samples where R120 says (R117). -/
theorem sequencer_counts (hseq : f.seq ∉ [Phase.idle, .wait]) (ht : 1 < f.tmr) :
    sequencer p level f = { f with tmr := f.tmr - 1, sbits := sampledBits p level f } := by
  cases hs : f.seq with
  | idle | wait => simp [hs] at hseq
  | bitHigh => simp [sequencer, hs, sampleBit_eq_sampledBits hs, timed, ht]
  | pdLow | pdHold | puSettle | bitLow | pulseHigh | pulseLow => simp [sequencer, hs, timed, ht, sampledBits]

/-- BIT_HIGH's end action, after the sample that falls on its edge when `T_SAMPLE` = `T_HIGH` (R118, R120). -/
theorem sequencer_bitHigh_ends (hs : f.seq = .bitHigh) (ht : f.tmr = 1) :
    sequencer p level f = bitHighEnd p { f with sbits := sampledBits p level f } := by
  simp [sequencer, hs, sampleBit_eq_sampledBits hs, timed, ht]

theorem sequencer_bitLow_ends (hs : f.seq = .bitLow) (ht : f.tmr = 1) : sequencer p level f = bitLowEnd p f := by
  simp [sequencer, hs, timed, ht]

theorem sequencer_pulseHigh_ends (hs : f.seq = .pulseHigh) (ht : f.tmr = 1) : sequencer p level f = pulseHighEnd p f := by
  simp [sequencer, hs, timed, ht]

theorem sequencer_pulseLow_ends (hs : f.seq = .pulseLow) (ht : f.tmr = 1) : sequencer p level f = pulseLowEnd p f := by
  simp [sequencer, hs, timed, ht]

theorem sequencer_wait (hs : f.seq = .wait) : sequencer p level f = waitReady p level f := by
  simp [sequencer, hs]

theorem waitReady_ready (h : level = p.readyLevel) :
    waitReady p level f = setSck true (enter .bitHigh p.tHigh { f with n := 0 }) :=
  if_pos h

theorem waitReady_timesOut (h : level ≠ p.readyLevel) (ht : f.timeout ≠ 0) (hw : f.timeout.toNat ≤ f.wcnt.toNat + 1) :
    waitReady p level f = complete .timeout f := by
  rw [waitReady, if_neg h, if_pos ⟨ht, hw⟩]

theorem waitReady_waits (h : level ≠ p.readyLevel) (ht : f.timeout = 0 ∨ f.wcnt.toNat + 1 < f.timeout.toNat) :
    waitReady p level f = { f with wcnt := f.wcnt + 1 } := by
  rw [waitReady, if_neg h, if_neg]
  rintro ⟨h0, hw⟩
  exact ht.elim h0 (by omega)

theorem bitLowEnd_next (h : f.n.val < 23) :
    bitLowEnd p f = setSck true (enter .bitHigh p.tHigh { f with n := f.n + 1 }) :=
  if_pos h

theorem bitLowEnd_last (h : f.n.val = 23) :
    bitLowEnd p f = setSck true (enter .pulseHigh p.tHigh { f with k := 0 }) :=
  if_neg (by omega)

theorem pulseLowEnd_next (h : f.k.val + 1 < pulses f.gain) :
    pulseLowEnd p f = setSck true (enter .pulseHigh p.tHigh { f with k := f.k + 1 }) :=
  if_pos h

theorem pulseLowEnd_last (h : pulses f.gain ≤ f.k.val + 1) : pulseLowEnd p f = frameEnd f :=
  if_neg (by omega)

/-- The next data pulse's index does not wrap. -/
theorem next_n_val {n : Fin 24} (h : n.val < 23) : (n + 1).val = n.val + 1 := Fin.val_add_one_of_lt' (by omega)

/-- The next gain pulse's index does not wrap: P is at most 3. -/
theorem next_k_val {k : Fin 3} {g : GainChannel} (h : k.val + 1 < pulses g) : (k + 1).val = k.val + 1 :=
  Fin.val_add_one_of_lt' (by have := pulses_le_three g; omega)

end phases

/-! ## One edge of a busy block -/

/-- The block after an edge with any access, its flags as they come out but for a completion's DONE. -/
def steppedBlock (s : State) (done ovr : Bool) : Frx :=
  { sequencer s.par (din s.par s.dev.line s.frx) s.frx with
    done := if (sequencer s.par (din s.par s.dev.line s.frx) s.frx).seq = .idle then true else done
    ovr := ovr
    sync := shiftedSync s }

/-- An access to a busy block leaves it as the sequencer and the synchronizer do, but for the two flags. -/
theorem blockEdge_busy_flags {s : State} (hbusy : s.frx.seq ≠ .idle) (i : Instr) {f : Frx}
    (hf : f = blockEdge s.par s.dev.line (accessEffect s.par i) s.frx) : f = steppedBlock s f.done f.ovr := by
  obtain ⟨d, o, he⟩ := blockEdge_access_busy s.par s.dev.line i hbusy
  rw [hf, he]
  by_cases hidle : (sequencer s.par (din s.par s.dev.line s.frx) s.frx).seq = .idle <;>
    simp [steppedBlock, hidle, shiftedSync, shiftSync]

/-- In a runnable state every instruction answers; a busy block is then as the sequencer leaves it. -/
theorem exec_busy (i : Instr) {s : State} (h : Runnable s) :
    ∃ t, exec i s = .next t ∧ (s.frx.seq ≠ .idle → t.frx = steppedBlock s t.frx.done t.frx.ovr) :=
  ⟨_, exec_runnable i h.1 h.2, fun hbusy => blockEdge_busy_flags hbusy i rfl⟩

/-- Settles O29: the ready test succeeds, is the last, or neither. -/
theorem readyTestHasThreeOutcomes : Obligations.ReadyTestHasThreeOutcomes := by
  unfold Obligations.ReadyTestHasThreeOutcomes
  intro i s h hs
  obtain ⟨t, ht, hframe⟩ := exec_busy i h
  have hblock := hframe (by simp [hs])
  rw [steppedBlock, sequencer_wait hs] at hblock
  refine ⟨t, ht, fun hready => ?_, fun hready h0 hlast => ?_, fun hready hmore => ?_⟩
  · simpa [waitReady_ready hready, enter, setSck] using hblock
  · simpa [waitReady_timesOut hready h0 hlast, complete] using hblock
  · simpa [waitReady_waits hready hmore, hs] using hblock

/-- Settles O30: `sequencer_counts`, with R120's condition in its own form. -/
theorem timedPhasesCountDownAndSample : Obligations.TimedPhasesCountDownAndSample := by
  unfold Obligations.TimedPhasesCountDownAndSample
  intro i s h hseq htmr
  obtain ⟨t, ht, hframe⟩ := exec_busy i h
  have hidle : s.frx.seq ≠ .idle := fun hs => hseq (by simp [hs])
  have hblock := hframe hidle
  have hsample : (s.par.tHigh : Int) - (s.frx.tmr : Int) + (1 : Int) = (s.par.tSample : Int) ↔
      s.par.tHigh + 1 = s.par.tSample + s.frx.tmr := by omega
  refine ⟨t, ht, ?_⟩
  simpa [steppedBlock, sequencer_counts hseq htmr, sampledBits, hidle, hsample] using hblock

/-- Settles O31: the end actions of BIT_HIGH and BIT_LOW. -/
theorem dataPulsesFollowEachOther : Obligations.DataPulsesFollowEachOther := by
  unfold Obligations.DataPulsesFollowEachOther
  intro i s h htmr
  obtain ⟨t, ht, hframe⟩ := exec_busy i h
  refine ⟨t, ht, fun hs => ?_, fun hs hn => ?_, fun hs hn => ?_⟩
  · have hblock := hframe (by simp [hs])
    simpa [steppedBlock, sequencer_bitHigh_ends hs htmr, sampledBits, hs, htmr, bitHighEnd, enter, setSck] using hblock
  · have hblock := hframe (by simp [hs])
    rw [steppedBlock, sequencer_bitLow_ends hs htmr, bitLowEnd_next hn] at hblock
    have hnext : t.frx.n = s.frx.n + 1 := by rw [hblock]; rfl
    exact ⟨hnext ▸ next_n_val hn, by rw [hnext]; simpa [enter, setSck] using hblock⟩
  · have hblock := hframe (by simp [hs])
    simpa [steppedBlock, sequencer_bitLow_ends hs htmr, bitLowEnd_last hn, enter, setSck] using hblock

/-- Settles O32: the end actions of PULSE_HIGH and, before the last pulse, of PULSE_LOW. -/
theorem gainPulsesCountToP : Obligations.GainPulsesCountToP := by
  unfold Obligations.GainPulsesCountToP
  intro i s h htmr
  obtain ⟨t, ht, hframe⟩ := exec_busy i h
  refine ⟨t, ht, fun hs => ?_, fun hs hk => ?_⟩
  · have hblock := hframe (by simp [hs])
    simpa [steppedBlock, sequencer_pulseHigh_ends hs htmr, pulseHighEnd, enter, setSck] using hblock
  · have hblock := hframe (by simp [hs])
    rw [steppedBlock, sequencer_pulseLow_ends hs htmr, pulseLowEnd_next hk] at hblock
    have hnext : t.frx.k = s.frx.k + 1 := by rw [hblock]; rfl
    exact ⟨hnext ▸ next_k_val hk, by rw [hnext]; simpa [enter, setSck] using hblock⟩

end Sys2Proof.Proofs
end

section
/-! PROOFS of 41_bit_transport.md, part two. The device's part of one edge, and of a reset edge. -/

namespace Sys2Proof.Proofs

open Sys2Proof.Machine Sys2Proof.Laws

/-- At an edge with any access the device sees the clock before and after it. -/
theorem exec_dev {i : Instr} {s t : State} (h : exec i s = .next t) :
    t.dev = deviceEdge s.par s.draws s.frx.sckQ t.frx.sckQ s.dev := by
  obtain ⟨-, rfl⟩ := exec_next_iff.mp h
  rfl

/-- Outside a frame, with no level undetermined, the line of a device that is on tells whether a conversion waits (R126). -/
theorem lineLevel_ready_iff {p : Params} {draw : Nat} {d : Device} (hon : d.on = true) (hs : d.stray = 0) (hc : d.c = 0) :
    lineLevel p draw d = p.readyLevel ↔ d.avail = true := by
  rw [lineLevel_outsideFrame hon hs hc]
  cases d.avail <;> simp

/-- Settles O54: after an edge the line is the level that follows from the rest of the device. -/
theorem lineIsReadyExactlyWhenAvailable : Obligations.LineIsReadyExactlyWhenAvailable := by
  unfold Obligations.LineIsReadyExactlyWhenAvailable
  intro i s t h hon hc hstray
  rw [exec_dev h] at hon hc hstray ⊢
  rw [deviceEdge_line]
  exact lineLevel_ready_iff hon hstray hc

section edge
variable {p : Params} {draw : Nat} {was now rise : Bool} {d : Device}

/-- While a frame is open no conversion comes (R128). -/
theorem offerConversion_inFrame (hc : d.c ≠ 0) : offerConversion draw d = d := by
  obtain h | ⟨-, h0, -⟩ := offerConversion_cases draw d
  · exact h
  · exact absurd h0 hc

/-- The rise that begins a frame, to a device that stays on and whose window does not close (R127). -/
theorem deviceOn_begins (hh : d.h < p.tDevPd) (hw : d.window ≠ 1) (hc : d.c = 0) (ha : d.avail = true) :
    deviceOn p draw true d =
      lagSettle
        { d with
          avail := false, c := 1, window := p.tFrameMax, shown := .unknown, lag := [(p.tDv, sourceAfter 1)]
          stray := d.stray - 1 } := by
  rw [deviceOn_staysOn hh, windowTick_of_ne_one hw, if_pos rfl,
    risingEdge_begins (d := lagTick { d with window := d.window - 1 }) hc ha]
  exact offerConversion_inFrame (draw := draw) Nat.one_ne_zero

/-- A further rise of the frame (R127, R128). -/
theorem deviceOn_counts (hh : d.h < p.tDevPd) (hw : d.window ≠ 1) (hc : d.c ≠ 0) :
    deviceOn p draw true d =
      lagSettle
        { d with
          c := d.c + 1, window := d.window - 1, stray := d.stray - 1
          lag := (lagTick d).lag ++ [(p.tDv, sourceAfter (d.c + 1))] } := by
  rw [deviceOn_staysOn hh, windowTick_of_ne_one hw, if_pos rfl,
    risingEdge_inFrame (d := lagTick { d with window := d.window - 1 }) hc]
  exact offerConversion_inFrame (draw := draw) (Nat.succ_ne_zero d.c)

/-- An edge of the frame at which the clock does not rise. -/
theorem deviceOn_holds (hh : d.h < p.tDevPd) (hw : d.window ≠ 1) (hc : d.c ≠ 0) :
    deviceOn p draw false d = lagSettle { d with window := d.window - 1, lag := (lagTick d).lag } := by
  rw [deviceOn_staysOn hh, windowTick_of_ne_one hw, if_neg Bool.false_ne_true]
  exact offerConversion_inFrame (draw := draw) hc

/-- The window closes: the frame's gain is taken, and a conversion that then comes leaves it (R129). -/
theorem deviceOn_closes (hh : d.h < p.tDevPd) (hw : d.window = 1) :
    (deviceOn p draw false d).c = 0 ∧ (deviceOn p draw false d).window = 0 ∧
      (deviceOn p draw false d).dgain = gainAfterFrame draw d.c := by
  rw [deviceOn_staysOn hh, windowTick_of_one hw, if_neg Bool.false_ne_true]
  obtain ho | ⟨-, -, ho⟩ := offerConversion_cases draw (lagSettle (lagTick
      { d with window := 0, dgain := gainAfterFrame draw d.c, c := 0, lag := [], shown := .unknown })) <;>
    rw [ho] <;> exact ⟨rfl, rfl, rfl⟩

/-- What the device's part of the edge leaves, and the line that follows from it. -/
theorem deviceEdge_of_on {e : Device} (hon : d.on = true)
    (he : deviceOn p draw (!was && now) { d with h := if now then d.h + 1 else 0 } = e) :
    deviceEdge p draw was now d = { e with line := lineLevel p draw e } := by
  rw [deviceEdge_on hon, he]

/-- A device that is on goes off, as R130 says, where the clock has been high for `T_DEV_PD` cycles. -/
theorem deviceEdge_powersDown (hon : d.on = true) (hh : p.tDevPd ≤ if now then d.h + 1 else 0) :
    ∃ e line, deviceEdge p draw was now d = { devicePowersDown e with line := line } := by
  obtain ⟨e, -, -, he⟩ := deviceOn_powersDown (p := p) (draw := draw) (rise := !was && now)
    (d := { d with h := if now then d.h + 1 else 0 }) hh
  exact ⟨e, _, by rw [deviceEdge_on hon, he]⟩

/-- A falling edge wakes a device that is off (R130). -/
theorem deviceEdge_wakes (hoff : d.on = false) :
    ∃ line, deviceEdge p draw true false d = { devicePowersUp { d with h := 0 } with line := line } := by
  obtain ⟨e, he, rfl⟩ := deviceEdge_off (p := p) (draw := draw) (was := true) (now := false) hoff
  exact ⟨_, he⟩

/-- No other edge wakes it (R130). -/
theorem deviceEdge_staysOff (hoff : d.on = false) (h : ¬ (was = true ∧ now = false)) :
    (deviceEdge p draw was now d).on = false := by
  obtain ⟨e, he, rfl⟩ := deviceEdge_off (p := p) (draw := draw) (was := was) (now := now) hoff
  have hnot : (was && !now) = false := by simpa using h
  rw [he, hnot]
  exact hoff

end edge

/-- Settles O55: a device that stays on counts the rise. -/
theorem deviceCountsRisingEdges : Obligations.DeviceCountsRisingEdges := by
  unfold Obligations.DeviceCountsRisingEdges
  intro i s t h hon hwas hnow hh hw
  rw [exec_dev h, hwas, hnow]
  refine ⟨fun hc ha => ?_, fun hc => ?_⟩
  · have begun := deviceOn_begins (draw := s.draws) (d := { s.dev with h := s.dev.h + 1 }) hh hw hc ha
    rw [deviceEdge_of_on (was := false) (now := true) hon begun]
    exact ⟨rfl, rfl, rfl, rfl, rfl⟩
  · have counted := deviceOn_counts (draw := s.draws) (d := { s.dev with h := s.dev.h + 1 }) hh hw hc
    rw [deviceEdge_of_on (was := false) (now := true) hon counted]
    exact ⟨rfl, rfl, rfl, rfl, rfl⟩

/-- Settles O56: a device that is on after the edge stayed on at it, so that the closing window's gain stands. -/
theorem closingWindowProgramsTheGain : Obligations.ClosingWindowProgramsTheGain := by
  unfold Obligations.ClosingWindowProgramsTheGain
  intro i s t h hon hw hstays hrise
  have hdev := exec_dev h
  obtain hh | hh := le_or_gt s.par.tDevPd (if t.frx.sckQ then s.dev.h + 1 else 0)
  · obtain ⟨e, line, he⟩ := deviceEdge_powersDown (draw := s.draws) (was := s.frx.sckQ) hon hh
    rw [hdev, he] at hstays
    exact absurd hstays Bool.false_ne_true
  · have hnot : (!s.frx.sckQ && t.frx.sckQ) = false := by simpa using hrise
    obtain ⟨hc, hwindow, hgain⟩ := deviceOn_closes (draw := s.draws)
      (d := { s.dev with h := if t.frx.sckQ then s.dev.h + 1 else 0 }) hh hw
    rw [deviceEdge_on hon, hnot] at hdev
    simp only [hdev]
    refine ⟨hc, hwindow, fun hcount => ?_, fun hcount => ?_, fun hcount => ?_⟩ <;> rw [hgain, hcount] <;> rfl

/-- Settles O57: the power-down, the wake, and no other wake. -/
theorem heldClockPowersTheDeviceDown : Obligations.HeldClockPowersTheDeviceDown := by
  unfold Obligations.HeldClockPowersTheDeviceDown
  intro i s t h
  refine ⟨fun hon hnow hh => ?_, fun hoff hwas hnow => ?_, fun hoff hedge => ?_⟩
  · obtain ⟨e, line, he⟩ := deviceEdge_powersDown (draw := s.draws) (was := s.frx.sckQ) (now := true) hon hh
    rw [exec_dev h, hnow, he]
    exact ⟨rfl, rfl, rfl, rfl⟩
  · obtain ⟨line, he⟩ := deviceEdge_wakes (p := s.par) (draw := s.draws) hoff
    rw [exec_dev h, hwas, hnow, he]
    exact ⟨rfl, rfl, rfl, rfl⟩
  · rw [exec_dev h]
    exact deviceEdge_staysOff hoff hedge

/-! ## A reset edge -/

/-- A reset at which the clock falls wakes a device that is off (R231). -/
theorem resetDevice_wakes {s : State} (hoff : s.dev.on = false) (hsck : s.frx.sckQ = true) :
    ∃ line, resetDevice s = { devicePowersUp { s.dev with h := 0 } with line := line } := by
  obtain ⟨-, hd⟩ | ⟨⟨-, hon⟩, -⟩ := resetDevice_cases s
  · rw [hd, hsck]
    exact deviceEdge_wakes hoff
  · exact absurd (hon hsck) (by simp [hoff])

theorem resetDevice_line (s : State) : (resetDevice s).line = lineLevel s.par s.draws (resetDevice s) := by
  obtain ⟨-, hd⟩ | ⟨-, hd⟩ := resetDevice_cases s <;> rw [hd]
  · exact deviceEdge_line _ _ _ _ _
  · exact drawn_line _ _ _

/-- With `T_DV` = 0 a drawn frame shows at once what its last rising edge puts on the line (R127). -/
theorem drawn_shown {p : Params} {draw stray : Nat} (htDv : p.tDv = 0) :
    (Device.drawn p draw stray).shown = sourceAfter (Device.drawn p draw stray).c := by
  simp [Device.drawn, drawnWait, htDv, Nat.mod_one]

/-- With `T_DV` = 0 a frame that a reset leaves open shows what its last rising edge puts on the line: it is a drawn one, since
a device just woken has none. -/
theorem resetDevice_shown {s : State} (hheld : resetHeld s = false) (htDv : s.par.tDv = 0) (hc : (resetDevice s).c ≠ 0) :
    (resetDevice s).shown = sourceAfter (resetDevice s).c := by
  obtain ⟨hwhy, -⟩ | ⟨-, hd⟩ := resetDevice_cases s
  · obtain ⟨hsck, hoff⟩ := hwhy.resolve_left (by simp [hheld])
    obtain ⟨line, hd⟩ := resetDevice_wakes hoff hsck
    exact absurd (by rw [hd]; rfl) hc
  · rw [hd]
    exact drawn_shown htDv

/-- Settles O58: the wake, the line outside a frame, and the line of a drawn frame. -/
theorem resetEdgeMeetsTheDevice : Obligations.ResetEdgeMeetsTheDevice := by
  unfold Obligations.ResetEdgeMeetsTheDevice
  intro s t h
  obtain ⟨-, rfl⟩ := resetEdge_next_iff.mp h
  simp only [resetState_dev]
  refine ⟨fun hoff hsck => ?_, fun hon hstray hc => ?_, fun hheld htDv hon hstray => ⟨fun n hc => ?_, fun hc => ?_⟩⟩
  · obtain ⟨line, hd⟩ := resetDevice_wakes hoff hsck
    rw [hd]
    exact ⟨rfl, rfl, rfl, rfl⟩
  · rw [resetDevice_line]
    exact lineLevel_ready_iff hon hstray hc
  · have hopen : (resetDevice s).c ≠ 0 := by omega
    rw [resetDevice_line, lineLevel_inFrame hon hstray hopen, resetDevice_shown hheld htDv hopen, hc, sourceAfter_bit]
  · have hopen : (resetDevice s).c ≠ 0 := by omega
    rw [resetDevice_line, lineLevel_inFrame hon hstray hopen, resetDevice_shown hheld htDv hopen, sourceAfter_notReady hc]

end Sys2Proof.Proofs
end

section
/-! PROOFS of 41_bit_transport.md, part three. Runs without `rst`: the ready wait, the synchronizer's delay, and two hosts beside
one another. -/

namespace Sys2Proof.Proofs

open Sys2Proof.Machine Sys2Proof.Safety Sys2Proof.Laws

/-! ## One edge of a run without `rst` -/

/-- An edge with `rst` = 0, whatever access the host makes at it. -/
structure EdgeOf (s t : State) : Prop where
  par : t.par = s.par
  resetSeen : t.resetSeen = s.resetSeen
  draws : t.draws = s.draws + 1
  block : ∃ i, t.frx = blockEdge s.par s.dev.line (accessEffect s.par i) s.frx
  dev : t.dev = deviceEdge s.par s.draws s.frx.sckQ t.frx.sckQ s.dev
  port : t.port = s.port.tail ∨ t.port = s.port

/-- A step without `rst` is such an edge, and its state is runnable. -/
theorem edgeOf_of_step {s t : State} (h : step s = .next t) (hrst : nextInput s ≠ .rst) : Runnable s ∧ EdgeOf s t := by
  obtain ⟨hr, -⟩ | ⟨-, hp, hr, i, got, port, hport, rfl⟩ := step_next_cases h
  · exact absurd hr hrst
  · exact ⟨⟨hp, hr⟩, rfl, rfl, rfl, ⟨i, rfl⟩, rfl, hport⟩

theorem EdgeOf.runnable {s t : State} (e : EdgeOf s t) (h : Runnable s) : Runnable t :=
  ⟨e.par ▸ h.1, e.resetSeen ▸ h.2⟩

/-- The synchronizer shifts at every edge (R111). -/
theorem EdgeOf.sync {s t : State} (e : EdgeOf s t) : t.frx.sync = shiftedSync s := by
  obtain ⟨i, hi⟩ := e.block
  rw [hi]
  rfl

/-- A busy block does what the sequencer does, but for the two flags and the synchronizer. -/
theorem EdgeOf.busy {s t : State} (e : EdgeOf s t) (h : s.frx.seq ≠ .idle) :
    t.frx =
      { sequencer s.par (din s.par s.dev.line s.frx) s.frx with
        done := t.frx.done, ovr := t.frx.ovr, sync := t.frx.sync } := by
  obtain ⟨i, hi⟩ := e.block
  have hstep := blockEdge_busy_flags h i hi
  rw [hstep]
  rfl

/-- A completion sets DONE, whatever the host does at its edge (R66, R212). -/
theorem EdgeOf.done {s t : State} (e : EdgeOf s t) (h : s.frx.seq ≠ .idle) (hidle : t.frx.seq = .idle) : t.frx.done = true := by
  obtain ⟨i, hi⟩ := e.block
  have hstep := blockEdge_busy_flags h i hi
  rw [hstep] at hidle ⊢
  exact if_pos hidle

/-- An edge uses up at most one input of the port, so that it brings no `rst` nearer than it was. -/
theorem EdgeOf.port_subset {s t : State} (e : EdgeOf s t) (k : Nat) : t.port.take k ⊆ s.port.take (k + 1) := by
  obtain h | h := e.port <;> rw [h]
  · cases s.port with
    | nil => simp
    | cons x rest => exact List.subset_cons_self x _
  · exact (List.take_prefix_take_left (Nat.le_succ k)).subset

theorem EdgeOf.noRstFor {s t : State} (e : EdgeOf s t) {k : Nat} (h : noRstFor (k + 1) s) : noRstFor k t :=
  fun x hx => h x (e.port_subset k hx)

theorem nextInput_ne_rst {s : State} {k : Nat} (h : noRstFor (k + 1) s) : nextInput s ≠ .rst := by
  unfold nextInput
  cases hp : s.port with
  | nil => exact nofun
  | cons x rest => exact h x (by simp [hp])

/-! ## Many edges -/

/-- A run is extended by a step at its end. -/
theorem runEdges_succ {k : Nat} {s u : State} (h : runEdges k s = .next u) : runEdges (k + 1) s = step u := by
  induction k generalizing s with
  | zero =>
    obtain rfl := Host.Outcome.next.inj h
    simp only [runEdges]
    cases step s <;> rfl
  | succ k ih =>
    rw [runEdges] at h ⊢
    cases hs : step s with
    | next v => exact ih (by simpa [hs] using h)
    | fault r | refused r => simp [hs] at h

/-- A run is a step and the run after it. -/
theorem runEdges_cons {k : Nat} {s u : State} (h : step s = .next u) : runEdges (k + 1) s = runEdges k u := by
  rw [runEdges, h]

/-- What holds at the start and is carried on by every edge of a run without `rst` holds at each of its edges. -/
theorem runEdges_induction {P : Nat → State → Prop} {k : Nat} {s : State} (h : Runnable s) (hrst : noRstFor k s) (start : P 0 s)
    (edge : ∀ j u v, j < k → runEdges j s = .next u → u.par = s.par → P j u → EdgeOf u v → P (j + 1) v) :
    ∀ j, j ≤ k → ∃ u, runEdges j s = .next u ∧ u.par = s.par ∧ Runnable u ∧ noRstFor (k - j) u ∧ P j u := by
  intro j
  induction j with
  | zero => exact fun _ => ⟨s, rfl, rfl, h, hrst, start⟩
  | succ j ih =>
    intro hj
    obtain ⟨u, hrun, hpar, hu, hnext, hP⟩ := ih (by omega)
    rw [show k - j = k - (j + 1) + 1 by omega] at hnext
    obtain ⟨v, hstep⟩ := step_answers hu.1 hu.2
    obtain ⟨-, e⟩ := edgeOf_of_step hstep (nextInput_ne_rst hnext)
    exact ⟨v, (runEdges_succ hrun).trans hstep, e.par.trans hpar, e.runnable hu, e.noRstFor hnext,
      edge j u v (by omega) hrun hpar hP e⟩

/-! ## The synchronizer's delay -/

/-- `din` is entry S of the levels that the block has before it, the line's first. -/
theorem din_eq_of_level {p : Params} {line b : Bool} {f : Frx} (h : (line :: f.sync)[p.syncStages]? = some b) :
    din p line f = b := by
  unfold din
  cases hS : p.syncStages with
  | zero => simpa [hS] using h
  | succ k =>
    have hk : f.sync[k]? = some b := by simpa [hS] using h
    simp [List.getD, hk]

/-- Each edge moves a level on by one entry, up to entry S (R111). -/
theorem EdgeOf.level {s t : State} (e : EdgeOf s t) {j : Nat} (hj : j < s.par.syncStages) :
    (t.dev.line :: t.frx.sync)[j + 1]? = (s.dev.line :: s.frx.sync)[j]? := by
  rw [List.getElem?_cons_succ, e.sync, shiftedSync, List.getElem?_take_of_lt hj]

/-- Settles O48: after j edges the level of the start is entry j. -/
theorem dinIsTheLevelSEdgesAgo : Obligations.DinIsTheLevelSEdgesAgo := by
  unfold Obligations.DinIsTheLevelSEdgesAgo
  intro s h hrst
  obtain ⟨t, hrun, hpar, -, -, hlevel⟩ :=
    runEdges_induction (P := fun j u => (u.dev.line :: u.frx.sync)[j]? = some s.dev.line) h hrst rfl
      (fun j u v hj _ hpar hP e => (e.level (hpar ▸ hj)).trans hP) s.par.syncStages le_rfl
  exact ⟨t, hrun, din_eq_of_level (hpar ▸ hlevel)⟩

/-! ## The bounded wait -/

/-- The block after j failed ready tests of the wait that began as `start`. -/
def waitedBlock (start : Frx) (j : Nat) (f : Frx) : Frx :=
  { start with wcnt := BitVec.ofNat 32 j, done := f.done, ovr := f.ovr, sync := f.sync }

/-- The block whose wait has timed out (R116, R203). -/
def timedOutBlock (start f : Frx) : Frx :=
  { start with seq := .idle, op := .none, done := true, err := .timeout, wcnt := f.wcnt, ovr := f.ovr, sync := f.sync }

section wait
variable {start : Frx} {j : Nat} {u v : State}

theorem waitedBlock_wcnt (hu : u.frx = waitedBlock start j u.frx) (hj : j < start.timeout.toNat) : u.frx.wcnt.toNat = j := by
  have hmax := start.timeout.isLt
  rw [hu, waitedBlock, BitVec.toNat_ofNat, Nat.mod_eq_of_lt (by omega)]

/-- A failed test but the last counts (R114). -/
theorem EdgeOf.waits (e : EdgeOf u v) (hs : start.seq = .wait) (hu : u.frx = waitedBlock start j u.frx)
    (hdin : din u.par u.dev.line u.frx ≠ u.par.readyLevel) (hj : j + 1 < start.timeout.toNat) :
    v.frx = waitedBlock start (j + 1) v.frx := by
  have hseq : u.frx.seq = .wait := by rw [hu]; exact hs
  have htimeout : u.frx.timeout = start.timeout := by rw [hu]; rfl
  have hmore : u.frx.wcnt.toNat + 1 < u.frx.timeout.toNat := by
    rw [waitedBlock_wcnt hu (by omega), htimeout]
    exact hj
  have hv := e.busy (by simp [hseq])
  rw [sequencer_wait hseq, waitReady_waits hdin (.inr hmore), hu] at hv
  rw [waitedBlock, BitVec.ofNat_add]
  exact hv

/-- The last allowed test, failing, completes with TIMEOUT (R116). -/
theorem EdgeOf.timesOut (e : EdgeOf u v) (hs : start.seq = .wait) (hu : u.frx = waitedBlock start j u.frx)
    (hdin : din u.par u.dev.line u.frx ≠ u.par.readyLevel) (hj : j + 1 = start.timeout.toNat) :
    v.frx = timedOutBlock start v.frx := by
  have hseq : u.frx.seq = .wait := by rw [hu]; exact hs
  have htimeout : u.frx.timeout = start.timeout := by rw [hu]; rfl
  have hlast : u.frx.timeout.toNat ≤ u.frx.wcnt.toNat + 1 := by
    rw [waitedBlock_wcnt hu (by omega), htimeout]
    exact hj.ge
  have hbounded : u.frx.timeout ≠ 0 := by
    rw [htimeout]
    rintro h0
    simp [h0] at hj
  have hv := e.busy (by simp [hseq])
  rw [sequencer_wait hseq, waitReady_timesOut hdin hbounded hlast] at hv
  have hdone : v.frx.done = true := e.done (by simp [hseq]) (by rw [hv]; rfl)
  have hwcnt : v.frx.wcnt = u.frx.wcnt := by rw [hv]; rfl
  rw [hdone, hu] at hv
  rw [timedOutBlock, hwcnt, hu]
  exact hv

end wait

/-- Settles O50: each failed test but the last counts, and the last completes. -/
theorem boundedWaitTimesOut : Obligations.BoundedWaitTimesOut := by
  unfold Obligations.BoundedWaitTimesOut
  intro s h hs hw h0 hrst hfail
  have hpos : 0 < s.frx.timeout.toNat := Nat.pos_of_ne_zero fun hz => h0 (BitVec.eq_of_toNat_eq hz)
  have run := runEdges_induction h hrst
    (P := fun j u => (j < s.frx.timeout.toNat → u.frx = waitedBlock s.frx j u.frx) ∧
      (j = s.frx.timeout.toNat → u.frx = timedOutBlock s.frx u.frx))
    ⟨fun _ => by rw [waitedBlock, show BitVec.ofNat 32 0 = s.frx.wcnt from hw.symm], fun hz => absurd hz hpos.ne⟩
    (fun j u v hj hrun _ hP e =>
      ⟨e.waits hs (hP.1 hj) (hfail j u hj hrun), e.timesOut hs (hP.1 hj) (hfail j u hj hrun)⟩)
  refine ⟨fun j u hj hrun => ?_, ?_⟩
  · obtain ⟨u', hrun', -, -, -, hwait, -⟩ := run j hj.le
    obtain rfl := Host.Outcome.next.inj (hrun.symm.trans hrun')
    rw [hwait hj]
    exact ⟨hs, rfl⟩
  · obtain ⟨t, hrun, -, -, -, -, hend⟩ := run _ le_rfl
    exact ⟨t, hrun, hend rfl⟩

/-! ## Two hosts beside one another -/

/-- Two machines that differ in DONE and OVR and in what their hosts do. -/
structure Twins (s s' : State) : Prop where
  par : s'.par = s.par
  resetSeen : s'.resetSeen = s.resetSeen
  draws : s'.draws = s.draws
  dev : s'.dev = s.dev
  frx : s'.frx = { s.frx with done := s'.frx.done, ovr := s'.frx.ovr }

/-- While a command runs, an edge keeps two such machines so, whatever each host does at it (R65, R66, R219). -/
theorem Twins.edge {s s' t t' : State} (h : Twins s s') (hbusy : s.frx.seq ≠ .idle) (e : EdgeOf s t) (e' : EdgeOf s' t') :
    Twins t t' := by
  have hseq : s'.frx.seq = s.frx.seq := by rw [h.frx]
  have hdin : din s'.par s'.dev.line s'.frx = din s.par s.dev.line s.frx := by rw [h.par, h.dev, h.frx]; rfl
  have hflags := sequencer_flagsApart s.par (din s.par s.dev.line s.frx) s.frx s'.frx.done s'.frx.ovr hbusy
  rw [← h.frx] at hflags
  have hsync : t'.frx.sync = t.frx.sync := by rw [e.sync, e'.sync, shiftedSync, h.par, h.dev, h.frx]; rfl
  have hfrx : t'.frx = { t.frx with done := t'.frx.done, ovr := t'.frx.ovr } := by
    have ht' := e'.busy (hseq ▸ hbusy)
    rw [hdin, hsync, h.par, hflags] at ht'
    rw [e.busy hbusy]
    exact ht'
  have hsck : t'.frx.sckQ = t.frx.sckQ := by rw [hfrx]
  refine ⟨?_, ?_, ?_, ?_, hfrx⟩
  · rw [e.par, e'.par, h.par]
  · rw [e.resetSeen, e'.resetSeen, h.resetSeen]
  · rw [e.draws, e'.draws, h.draws]
  · rw [e.dev, e'.dev, hsck, h.par, h.draws, h.dev, h.frx]

theorem noRst_of_edge {s t : State} (e : EdgeOf s t) (h : ∀ x ∈ s.port, x ≠ .rst) : ∀ x ∈ t.port, x ≠ .rst := by
  obtain hp | hp := e.port <;> rw [hp]
  · exact fun x hx => h x (List.mem_of_mem_tail hx)
  · exact h

theorem nextInput_ne_rst_of_port {s : State} (h : ∀ x ∈ s.port, x ≠ .rst) : nextInput s ≠ .rst :=
  nextInput_ne_rst (k := 0) fun x hx => h x (List.mem_of_mem_take hx)

/-- As long as a command runs, twins stay twins over a run without `rst`. -/
theorem Twins.run {k : Nat} {s s' t : State} (h : Twins s s') (hrst : ∀ x ∈ s.port, x ≠ .rst) (hrst' : ∀ x ∈ s'.port, x ≠ .rst)
    (hbusy : ∀ j u, j < k → runEdges j s = .next u → u.frx.seq ≠ .idle) (hrun : runEdges k s = .next t) :
    ∃ t', runEdges k s' = .next t' ∧ Twins t t' := by
  induction k generalizing s s' with
  | zero =>
    obtain rfl := Host.Outcome.next.inj hrun
    exact ⟨s', rfl, h⟩
  | succ k ih =>
    cases hs : step s with
    | next u =>
      obtain ⟨hr, e⟩ := edgeOf_of_step hs (nextInput_ne_rst_of_port hrst)
      obtain ⟨u', hs'⟩ := step_answers (s := s') (h.par ▸ hr.1) (h.resetSeen ▸ hr.2)
      obtain ⟨-, e'⟩ := edgeOf_of_step hs' (nextInput_ne_rst_of_port hrst')
      rw [runEdges_cons hs] at hrun
      rw [runEdges_cons hs']
      refine ih (h.edge (hbusy 0 s (by omega) rfl) e e') (noRst_of_edge e hrst) (noRst_of_edge e' hrst') ?_ hrun
      exact fun j v hj hv => hbusy (j + 1) v (by omega) ((runEdges_cons hs).trans hv)
    | fault r | refused r => simp [runEdges, hs] at hrun

/-- Settles O44: a machine and itself with another host are twins. -/
theorem hostCannotDisturbARunningCommand : Obligations.HostCannotDisturbARunningCommand := by
  unfold Obligations.HostCannotDisturbARunningCommand
  intro k s t other hrst hother hbusy hrun
  have twins : Twins s { s with port := other } := ⟨rfl, rfl, rfl, rfl, rfl⟩
  obtain ⟨t', hrun', h⟩ := twins.run hrst hother hbusy hrun
  exact ⟨t', hrun', h.dev, h.frx⟩

end Sys2Proof.Proofs
end

section
/-! PROOFS of 41_bit_transport.md, part four. The place of an edge in a frame: pulse m of 24 + P, r cycles after its assertion. -/

namespace Sys2Proof.Proofs

open Sys2Proof.Machine Sys2Proof.Safety Sys2Proof.Laws

/-- The phase r cycles into pulse m (R118, R119). -/
def phaseAt (p : Params) (m r : Nat) : Phase :=
  if m < 24 then (if r < p.tHigh then .bitHigh else .bitLow) else (if r < p.tHigh then .pulseHigh else .pulseLow)

/-- The block is r cycles into pulse m of a frame, a data pulse for m < 24 and gain pulse m − 24 from there on. -/
structure AtPulse (p : Params) (m r : Nat) (f : Frx) : Prop where
  seq : f.seq = phaseAt p m r
  tmr : f.tmr = if r < p.tHigh then p.tHigh - r else p.tHigh + p.tLow - r
  sck : f.sckQ = decide (r < p.tHigh)
  data : m < 24 → f.n.val = m
  gain : 24 ≤ m → f.k.val = m - 24

/-- What a frame leaves as it was up to its end: the ordering flags, GAIN, DEVG and whether it is a discard frame. -/
def frameSettings (f : Frx) : Order × Order × GainChannel × Option GainChannel × Bool :=
  (f.bitord, f.byteord, f.gain, f.devg, f.discard)

/-- No edge but R120's writes the bit array. -/
theorem sequencer_sbits (p : Params) (level : Bool) (f : Frx) : (sequencer p level f).sbits = sampledBits p level f := by
  have other (h : f.seq ≠ .bitHigh) : sampledBits p level f = f.sbits := if_neg fun hb => h hb.1
  cases hs : f.seq with
  | bitHigh =>
    simp only [sequencer, hs, sampleBit_eq_sampledBits hs]
    exact timed_keeps Frx.sbits rfl fun _ => rfl
  | idle => simp [sequencer, hs, other]
  | wait =>
    rw [other (by simp [hs]), sequencer_wait hs, waitReady]
    split <;> [rfl; (split <;> rfl)]
  | pdLow =>
    simp only [sequencer, hs, other (by simp [hs])]
    exact timed_keeps Frx.sbits rfl fun _ => rfl
  | pdHold =>
    simp only [sequencer, hs, other (by simp [hs])]
    exact timed_keeps Frx.sbits rfl fun _ => by rw [pdHoldEnd]; split <;> rfl
  | puSettle =>
    simp only [sequencer, hs, other (by simp [hs])]
    exact timed_keeps Frx.sbits rfl fun _ => by rw [puSettleEnd]; split <;> rfl
  | bitLow =>
    simp only [sequencer, hs, other (by simp [hs])]
    exact timed_keeps Frx.sbits rfl fun _ => by rw [bitLowEnd]; split <;> rfl
  | pulseHigh =>
    simp only [sequencer, hs, other (by simp [hs])]
    exact timed_keeps Frx.sbits rfl fun _ => rfl
  | pulseLow =>
    simp only [sequencer, hs, other (by simp [hs])]
    exact timed_keeps Frx.sbits rfl fun _ => by
      rw [pulseLowEnd, frameEnd, recordSample]
      split <;> [rfl; (dsimp only [complete, setSck]; split <;> rfl)]

section pulse
variable {p : Params} {level : Bool} {m r : Nat} {f : Frx}

theorem phaseAt_bitHigh (hm : m < 24) (hr : r < p.tHigh) : phaseAt p m r = .bitHigh := by
  rw [phaseAt, if_pos hm, if_pos hr]

theorem phaseAt_bitLow (hm : m < 24) (hr : p.tHigh ≤ r) : phaseAt p m r = .bitLow := by
  rw [phaseAt, if_pos hm, if_neg hr.not_gt]

theorem phaseAt_pulseHigh (hm : 24 ≤ m) (hr : r < p.tHigh) : phaseAt p m r = .pulseHigh := by
  rw [phaseAt, if_neg hm.not_gt, if_pos hr]

theorem phaseAt_pulseLow (hm : 24 ≤ m) (hr : p.tHigh ≤ r) : phaseAt p m r = .pulseLow := by
  rw [phaseAt, if_neg hm.not_gt, if_neg hr.not_gt]

theorem phaseAt_eq_bitHigh_iff : phaseAt p m r = .bitHigh ↔ m < 24 ∧ r < p.tHigh := by
  unfold phaseAt
  split_ifs with hm hr <;> simp [*]

theorem phaseAt_not_mem : phaseAt p m r ∉ [Phase.idle, .wait] := by
  unfold phaseAt
  split <;> split <;> decide

theorem AtPulse.busy (h : AtPulse p m r f) : f.seq ≠ .idle := fun hs =>
  phaseAt_not_mem (p := p) (m := m) (r := r) (by simp [← h.seq, hs])

/-- The place looks at none of the fields that a host or the synchronizer writes. -/
theorem AtPulse.flags {d o : Bool} {chain : List Bool} (h : AtPulse p m r f) :
    AtPulse p m r { f with done := d, ovr := o, sync := chain } :=
  { h with }

/-- The asserted half of a pulse begins. -/
theorem atPulse_asserted (hhigh : 1 ≤ p.tHigh) (hdata : m < 24 → f.n.val = m) (hgain : 24 ≤ m → f.k.val = m - 24) :
    AtPulse p m 0 (setSck true (enter (phaseAt p m 0) p.tHigh f)) :=
  ⟨rfl, by simp; omega, by simp; omega, hdata, hgain⟩

/-- The deasserted half of a pulse begins. -/
theorem atPulse_deasserted (hdata : m < 24 → f.n.val = m) (hgain : 24 ≤ m → f.k.val = m - 24) :
    AtPulse p m p.tHigh (setSck false (enter (phaseAt p m p.tHigh) p.tLow f)) :=
  ⟨rfl, by simp, by simp, hdata, hgain⟩

/-- Inside a half of the pulse the timer counts. -/
theorem AtPulse.counts (h : AtPulse p m r f) (hr : r + 1 ≠ p.tHigh) (hr' : r + 1 < p.tHigh + p.tLow) :
    AtPulse p m (r + 1) (sequencer p level f) ∧ frameSettings (sequencer p level f) = frameSettings f := by
  have htmr := h.tmr
  have hlow : r < p.tHigh ↔ r + 1 < p.tHigh := by omega
  have hphase : phaseAt p m (r + 1) = phaseAt p m r := by simp only [phaseAt, hlow]
  rw [sequencer_counts (h.seq ▸ phaseAt_not_mem) (by split at htmr <;> omega)]
  refine ⟨⟨h.seq.trans hphase.symm, ?_, ?_, h.data, h.gain⟩, rfl⟩
  · dsimp only
    split at htmr <;> split <;> omega
  · simp only [h.sck, hlow]

/-- The clock falls `T_HIGH` cycles after the assertion. -/
theorem AtPulse.falls (h : AtPulse p m r f) (hr : r + 1 = p.tHigh) :
    AtPulse p m (r + 1) (sequencer p level f) ∧ frameSettings (sequencer p level f) = frameSettings f := by
  have ht : f.tmr = 1 := by rw [h.tmr, if_pos (by omega)]; omega
  rw [hr]
  obtain hm | hm := lt_or_ge m 24
  · rw [sequencer_bitHigh_ends (h.seq.trans (phaseAt_bitHigh hm (by omega))) ht, bitHighEnd, ← phaseAt_bitLow hm le_rfl]
    exact ⟨atPulse_deasserted h.data h.gain, rfl⟩
  · rw [sequencer_pulseHigh_ends (h.seq.trans (phaseAt_pulseHigh hm (by omega))) ht, pulseHighEnd,
      ← phaseAt_pulseLow hm le_rfl]
    exact ⟨atPulse_deasserted h.data h.gain, rfl⟩

/-- At the end of its `T_BIT` a pulse that is not the last is followed by the next, with no gap. -/
theorem AtPulse.rises (h : AtPulse p m r f) (hhigh : 1 ≤ p.tHigh) (hlow : 1 ≤ p.tLow) (hr : r + 1 = p.tHigh + p.tLow)
    (hm : m + 1 < 24 + pulses f.gain) :
    AtPulse p (m + 1) 0 (sequencer p level f) ∧ frameSettings (sequencer p level f) = frameSettings f := by
  have ht : f.tmr = 1 := by rw [h.tmr, if_neg (by omega)]; omega
  obtain hdata | rfl | hgain := lt_trichotomy m 23
  · have hn : f.n.val = m := h.data (by omega)
    have hnext : (f.n + 1).val = f.n.val + 1 := next_n_val (by omega)
    rw [sequencer_bitLow_ends (h.seq.trans (phaseAt_bitLow (by omega) (by omega))) ht, bitLowEnd_next (by omega),
      ← phaseAt_bitHigh (p := p) (m := m + 1) (r := 0) (by omega) hhigh]
    exact ⟨atPulse_asserted hhigh (fun _ => by rw [hnext, hn]) (fun _ => by omega), rfl⟩
  · rw [sequencer_bitLow_ends (h.seq.trans (phaseAt_bitLow (by omega) (by omega))) ht, bitLowEnd_last (h.data (by omega)),
      ← phaseAt_pulseHigh (p := p) (m := 24) (r := 0) le_rfl hhigh]
    exact ⟨atPulse_asserted hhigh (fun _ => by omega) (fun _ => rfl), rfl⟩
  · have hk : f.k.val = m - 24 := h.gain (by omega)
    have hmore : f.k.val + 1 < pulses f.gain := by omega
    have hnext : (f.k + 1).val = f.k.val + 1 := next_k_val hmore
    rw [sequencer_pulseLow_ends (h.seq.trans (phaseAt_pulseLow (by omega) (by omega))) ht, pulseLowEnd_next hmore,
      ← phaseAt_pulseHigh (p := p) (m := m + 1) (r := 0) (by omega) hhigh]
    exact ⟨atPulse_asserted hhigh (fun _ => by omega) (fun _ => by rw [hnext, hk]; omega), rfl⟩

/-- The last pulse's end is the frame's. -/
theorem AtPulse.ends (h : AtPulse p m r f) (hlow : 1 ≤ p.tLow) (hr : r + 1 = p.tHigh + p.tLow)
    (hm : m + 1 = 24 + pulses f.gain) : f.seq = .pulseLow ∧ f.tmr = 1 ∧ pulses f.gain ≤ f.k.val + 1 := by
  have hpos := pulses_pos f.gain
  have hk : f.k.val = m - 24 := h.gain (by omega)
  exact ⟨h.seq.trans (phaseAt_pulseLow (by omega) (by omega)), by rw [h.tmr, if_neg (by omega)]; omega, by omega⟩

end pulse

/-! ## Runs by pulses -/

/-- The next edge is in the same pulse, or the first of the next one. -/
theorem succ_div_mod {T j : Nat} (hT : 0 < T) :
    (j % T + 1 < T ∧ (j + 1) / T = j / T ∧ (j + 1) % T = j % T + 1) ∨
    (j % T + 1 = T ∧ (j + 1) / T = j / T + 1 ∧ (j + 1) % T = 0) := by
  have hj := Nat.mod_add_div j T
  obtain hlt | heq := Nat.lt_or_eq_of_le (Nat.mod_lt j hT)
  · exact .inl ⟨hlt, (Nat.div_mod_unique hT).mpr ⟨by omega, hlt⟩⟩
  · exact .inr ⟨heq, (Nat.div_mod_unique hT).mpr ⟨by rw [Nat.mul_succ]; omega, hT⟩⟩

/-- The last edge of N pulses is the last of pulse N − 1. -/
theorem last_div_mod {N T : Nat} (hN : 0 < N) (hT : 0 < T) : (N * T - 1) / T = N - 1 ∧ (N * T - 1) % T = T - 1 := by
  refine (Nat.div_mod_unique hT).mpr ⟨?_, by omega⟩
  obtain ⟨n, rfl⟩ := Nat.exists_eq_succ_of_ne_zero hN.ne'
  rw [Nat.succ_mul, Nat.succ_sub_one, Nat.mul_comm]
  omega

/-- A run of N pulses of T edges without `rst`: what each edge carries on within its pulse and into the next holds at every
edge, and the edge that ends the last pulse comes after it. -/
theorem runPulses {Q : Nat → Nat → State → Prop} {N T : Nat} {s : State} (hN : 0 < N) (hT : 0 < T) (h : Runnable s)
    (hrst : noRstFor (N * T) s) (start : Q 0 0 s)
    (inside : ∀ m r u v, r + 1 < T → u.par = s.par → Q m r u → EdgeOf u v → Q m (r + 1) v)
    (next : ∀ m r u v, r + 1 = T → m + 1 < N → u.par = s.par → Q m r u → EdgeOf u v → Q (m + 1) 0 v) :
    (∀ j, j < N * T → ∃ u, runEdges j s = .next u ∧ Q (j / T) (j % T) u) ∧
      ∃ u v, runEdges (N * T) s = .next v ∧ u.par = s.par ∧ Q (N - 1) (T - 1) u ∧ EdgeOf u v := by
  have run := runEdges_induction (P := fun j u => j < N * T → Q (j / T) (j % T) u) h hrst
    (fun _ => by rw [Nat.zero_div, Nat.zero_mod]; exact start)
    (fun j u v hj _ hpar hP e hj' => by
      obtain ⟨hr, hdiv, hmod⟩ | ⟨hr, hdiv, hmod⟩ := succ_div_mod (j := j) hT <;> rw [hdiv, hmod]
      · exact inside _ _ u v hr hpar (hP hj) e
      · exact next _ _ u v hr (hdiv ▸ Nat.div_lt_of_lt_mul (Nat.mul_comm N T ▸ hj')) hpar (hP hj) e)
  refine ⟨fun j hj => ?_, ?_⟩
  · obtain ⟨u, hrun, -, -, -, hQ⟩ := run j hj.le
    exact ⟨u, hrun, hQ hj⟩
  · have hpos : 0 < N * T := Nat.mul_pos hN hT
    obtain ⟨u, hrun, hpar, hu, hlast, hQ⟩ := run (N * T - 1) (Nat.sub_le _ _)
    rw [show N * T - (N * T - 1) = 0 + 1 by omega] at hlast
    obtain ⟨hdiv, hmod⟩ := last_div_mod hN hT
    obtain ⟨v, hstep⟩ := step_answers hu.1 hu.2
    obtain ⟨-, e⟩ := edgeOf_of_step hstep (nextInput_ne_rst hlast)
    refine ⟨u, v, ?_, hpar, hdiv ▸ hmod ▸ hQ (by omega), e⟩
    rw [show N * T = N * T - 1 + 1 by omega, runEdges_succ hrun, hstep]

/-! ## The frame -/

/-- The block is at pulse m, cycle r of the frame whose settings `start` has. -/
structure InFrame (p : Params) (start : Frx) (m r : Nat) (f : Frx) : Prop extends AtPulse p m r f where
  kept : frameSettings f = frameSettings start

section frame
variable {p : Params} {start : Frx} {m r : Nat} {u v : State}

theorem InFrame.gain_eq {f : Frx} (h : InFrame p start m r f) : f.gain = start.gain :=
  congrArg (fun fields => fields.2.2.1) h.kept

/-- What the sequencer does to a block in a frame, the edge does. -/
theorem EdgeOf.inFrame {m' r' : Nat} (e : EdgeOf u v) (h : InFrame p start m r u.frx)
    (hnext : AtPulse p m' r' (sequencer u.par (din u.par u.dev.line u.frx) u.frx) ∧
      frameSettings (sequencer u.par (din u.par u.dev.line u.frx) u.frx) = frameSettings u.frx) :
    InFrame p start m' r' v.frx := by
  obtain ⟨hplace, hkept⟩ := hnext
  rw [e.busy h.busy]
  exact ⟨hplace.flags, hkept.trans h.kept⟩

theorem InFrame.inside (h : InFrame p start m r u.frx) (e : EdgeOf u v) (hp : u.par = p) (hr : r + 1 < p.tHigh + p.tLow) :
    InFrame p start m (r + 1) v.frx := by
  subst hp
  refine e.inFrame h ?_
  by_cases hfall : r + 1 = u.par.tHigh
  · exact h.falls hfall
  · exact h.counts hfall hr

theorem InFrame.next (h : InFrame p start m r u.frx) (e : EdgeOf u v) (hp : u.par = p) (legal : paramsLegal p = true)
    (hr : r + 1 = p.tHigh + p.tLow) (hm : m + 1 < 24 + pulses start.gain) : InFrame p start (m + 1) 0 v.frx := by
  subst hp
  obtain ⟨⟨hhigh, hlow, -⟩, -⟩ := (paramsLegal_iff _).mp legal
  exact e.inFrame h (h.rises hhigh hlow hr (h.gain_eq ▸ hm))

/-- The edge after a frame's last completes it (R152). -/
theorem InFrame.ends (h : InFrame p start m r u.frx) (e : EdgeOf u v) (hp : u.par = p) (legal : paramsLegal p = true)
    (hr : r + 1 = p.tHigh + p.tLow) (hm : m + 1 = 24 + pulses start.gain) :
    v.frx = { frameEnd u.frx with ovr := v.frx.ovr, sync := v.frx.sync } := by
  subst hp
  obtain ⟨⟨-, hlow, -⟩, -⟩ := (paramsLegal_iff _).mp legal
  obtain ⟨hseq, htmr, hk⟩ := h.toAtPulse.ends hlow hr (h.gain_eq ▸ hm)
  have hv := e.busy h.busy
  rw [sequencer_pulseLow_ends hseq htmr, pulseLowEnd_last hk] at hv
  have hdone : v.frx.done = true := e.done h.busy (by rw [hv]; rfl)
  rw [hdone] at hv
  exact hv

end frame

theorem recordSample_gain (f : Frx) : (recordSample f).gain = f.gain := by
  unfold recordSample
  split <;> rfl

/-- The first assertion of a frame is at pulse 0, cycle 0. -/
theorem inFrame_start {p : Params} {f : Frx} (legal : paramsLegal p = true) (hs : f.seq = .bitHigh) (hn : f.n = 0)
    (ht : f.tmr = p.tHigh) (hsck : f.sckQ = true) : InFrame p f 0 0 f := by
  obtain ⟨⟨hhigh, -⟩, -⟩ := (paramsLegal_iff _).mp legal
  have hpos : 0 < p.tHigh := hhigh
  exact ⟨⟨hs.trans (phaseAt_bitHigh (by omega) hpos).symm, by simp [ht, hpos], by simp [hsck, hpos], fun _ => by simp [hn],
    fun h => by omega⟩, rfl⟩

/-- Settles O49: edge j is in pulse j / T_BIT, j % T_BIT cycles after its assertion. -/
theorem frameLastsItsPulses : Obligations.FrameLastsItsPulses := by
  unfold Obligations.FrameLastsItsPulses
  intro s hinv hs hn ht hrst
  have legal := hinv.runnable.1
  obtain ⟨⟨hhigh, hlow, -⟩, -⟩ := (paramsLegal_iff _).mp legal
  have hsck : s.frx.sckQ = true := by rw [hinv.block.clock, hs]; rfl
  obtain ⟨along, u, v, hrun, hpar, hlast, e⟩ :=
    runPulses (Q := fun m r u => InFrame s.par s.frx m r u.frx) (by omega) (by omega) hinv.runnable hrst
      (inFrame_start legal hs hn ht hsck) (fun m r u v hr hpar h e => h.inside e hpar hr)
      (fun m r u v hr hm hpar h e => h.next e hpar legal hr hm)
  refine ⟨fun j hj => ?_, v, hrun, ?_⟩
  · obtain ⟨u, hrun, h⟩ := along j hj
    exact ⟨u, hrun, h.busy, h.sck⟩
  · rw [hlast.ends e hpar legal (by omega) (by omega)]
    simp [frameEnd, recordSample_gain, hlast.gain_eq]

end Sys2Proof.Proofs
end

section
/-! PROOFS of 41_bit_transport.md, part five. The device's word on its way: what the device puts on the line in a frame's data
pulses, and what the sampler takes of it. -/

namespace Sys2Proof.Proofs

open Sys2Proof.Machine Sys2Proof.Safety Sys2Proof.Laws

/-! ## What the device sends -/

/-- r cycles after its rise `src` is still to come, until `T_DV` of them have passed (R127). -/
def Shows (p : Params) (r : Nat) (src : LineSource) (d : Device) : Prop :=
  if r < p.tDv then d.lag = [(p.tDv - r, src)] else d.lag = [] ∧ d.shown = src

/-- The device's part of pulse m, r cycles after its rise, in a frame that sends `w` (R127, R128). -/
structure Sends (p : Params) (w : SerialBits) (m r : Nat) (d : Device) : Prop where
  on : d.on = true
  word : d.w = w
  count : d.c = m + 1
  stray : d.stray = 0
  high : d.h = if r < p.tHigh then r + 1 else 0
  window : 27 * (p.tHigh + p.tLow) ≤ d.window + (m * (p.tHigh + p.tLow) + r)
  shows : Shows p r (sourceAfter (m + 1)) d

section device
variable {p : Params} {w : SerialBits} {m r draw : Nat} {src : LineSource} {d e : Device}

theorem shows_of_lag (hr : r ≤ p.tDv) (hlag : d.lag = [(p.tDv - r, src)]) : Shows p r src (lagSettle d) := by
  unfold Shows
  split
  next hlt =>
    have hwait : p.tDv - r ≠ 0 := by omega
    simp [lagSettle, hlag, hwait]
  next hge =>
    have hdue : p.tDv - r = 0 := by omega
    simp [lagSettle, dueSource, hlag, hdue]

/-- A cycle brings a source nearer, and leaves one that has come. -/
theorem Shows.tick (h : Shows p r src d) (hshown : e.shown = d.shown) (hlag : e.lag = (lagTick d).lag) :
    Shows p (r + 1) src (lagSettle e) := by
  unfold Shows at h
  split at h
  next hlt => exact shows_of_lag hlt (by simp [hlag, lagTick, h, Nat.sub_sub])
  next hge =>
    obtain ⟨hnone, hsrc⟩ := h
    have hnone' : e.lag = [] := by simp [hlag, lagTick, hnone]
    rw [Shows, if_neg (by omega)]
    simp [lagSettle, dueSource, hnone', hshown, hsrc]

/-- From `T_DV` cycles after the rise on the line is the pulse's bit. -/
theorem Sends.line (h : Sends p w m r d) (hm : m < 24) (hr : p.tDv ≤ r) : lineLevel p draw d = w[m] := by
  have hshows := h.shows
  rw [Shows, if_neg hr.not_gt, sourceAfter_bit ⟨m, hm⟩] at hshows
  rw [lineLevel_inFrame h.on h.stray (by simp [h.count]), hshows.2, h.word]

/-- K4: the window outlasts the data pulses. -/
theorem Sends.window_ne_one (h : Sends p w m r d) (legal : paramsLegal p = true) (hm : m < 24) (hr : r < p.tHigh + p.tLow) :
    d.window ≠ 1 := by
  have hwindow := h.window
  have hpulses : m * (p.tHigh + p.tLow) ≤ 23 * (p.tHigh + p.tLow) := Nat.mul_le_mul_right _ (by omega)
  obtain ⟨⟨hhigh, hlow, -⟩, -⟩ := (paramsLegal_iff p).mp legal
  omega

/-- The rise that begins the frame takes the conversion (R127). -/
theorem sends_begins (legal : paramsLegal p = true) (hon : d.on = true) (havail : d.avail = true) (hc : d.c = 0)
    (hstray : d.stray = 0) (hh : d.h = 0) (hw : d.window = 0) : Sends p d.w 0 0 (deviceEdge p draw false true d) := by
  obtain ⟨⟨hhigh, -⟩, -, -, hK2, -, hK4, -⟩ := (paramsLegal_iff p).mp legal
  have begun := deviceOn_begins (p := p) (draw := draw) (d := { d with h := d.h + 1 }) (by simp; omega) (by simp [hw]) hc havail
  rw [deviceEdge_of_on (was := false) (now := true) hon begun]
  exact ⟨hon, rfl, rfl, by simp [hstray], by simp [hh]; omega, by simpa using hK4, shows_of_lag (Nat.zero_le _) rfl⟩

/-- Within a pulse the clock does not rise, and the source comes nearer. -/
theorem Sends.inside (h : Sends p w m r d) (legal : paramsLegal p = true) (hm : m < 24) (hr : r + 1 < p.tHigh + p.tLow) :
    Sends p w m (r + 1) (deviceEdge p draw (decide (r < p.tHigh)) (decide (r + 1 < p.tHigh)) d) := by
  obtain ⟨-, -, -, hK2, -⟩ := (paramsLegal_iff p).mp legal
  have hwindow := h.window
  have hclosing := h.window_ne_one legal hm (by omega)
  have hrise : (!decide (r < p.tHigh) && decide (r + 1 < p.tHigh)) = false := by simp; omega
  have hhigh : (if decide (r + 1 < p.tHigh) then d.h + 1 else 0) = if r + 1 < p.tHigh then r + 1 + 1 else 0 := by
    by_cases hb : r + 1 < p.tHigh
    · simp [hb, h.high, Nat.lt_of_succ_lt hb]
    · simp [hb]
  have hbelow : (if r + 1 < p.tHigh then r + 1 + 1 else 0) < p.tDevPd := by split <;> omega
  have held := deviceOn_holds (p := p) (draw := draw) (d := { d with h := if decide (r + 1 < p.tHigh) then d.h + 1 else 0 })
    (hhigh ▸ hbelow) hclosing (by simp [h.count])
  rw [← hrise] at held
  rw [deviceEdge_of_on h.on held]
  exact ⟨h.on, h.word, h.count, h.stray, hhigh, by simp; omega, h.shows.tick rfl rfl⟩

/-- The next data pulse's rise counts, and puts the next bit on its way (R127). -/
theorem Sends.next (h : Sends p w m r d) (legal : paramsLegal p = true) (hm : m < 24) (hr : r + 1 = p.tHigh + p.tLow) :
    Sends p w (m + 1) 0 (deviceEdge p draw (decide (r < p.tHigh)) true d) := by
  obtain ⟨⟨hhigh, hlow, -⟩, hK1, hK1', hK2, -⟩ := (paramsLegal_iff p).mp legal
  have hwindow := h.window
  have hclosing := h.window_ne_one legal hm (by omega)
  have hwas : decide (r < p.tHigh) = false := by simp; omega
  have hh : d.h = 0 := by rw [h.high, if_neg (by omega)]
  have hnone : d.lag = [] := by
    have hshows := h.shows
    rw [Shows, if_neg (by omega)] at hshows
    exact hshows.1
  have counted := deviceOn_counts (p := p) (draw := draw) (d := { d with h := d.h + 1 }) (by simp; omega) hclosing
    (by simp [h.count])
  rw [hwas, deviceEdge_of_on (was := false) (now := true) h.on counted]
  refine ⟨h.on, h.word, by simp [h.count], by simp [h.stray], by simp [hh]; omega, ?_, shows_of_lag (Nat.zero_le _) ?_⟩
  · simp [Nat.succ_mul]
    omega
  · simp [lagTick, hnone, h.count]

end device

/-! ## What the sampler takes -/

/-- The word on its way through pulse m, cycle r: the device sends it, the levels that the synchronizer holds from `T_DV` after
the rise on are the pulse's bit, and the bits whose sample edge is past are taken. -/
structure Delivers (p : Params) (w : SerialBits) (m r : Nat) (s : State) : Prop where
  sends : m < 24 → Sends p w m r s.dev
  levels : ∀ _ : m < 24, ∀ i, i ≤ p.syncStages → p.tDv + i ≤ r → (s.dev.line :: s.frx.sync)[i]? = some w[m]
  bits : ∀ i : Fin 24, i.val < m ∨ i.val = m ∧ p.tSample ≤ r → s.frx.sbits[i.val] = w[i.val]

section sampler
variable {p : Params} {w : SerialBits} {m r : Nat} {u v : State}

/-- In a frame the one edge that samples is edge `T_SAMPLE` of a data pulse (R120). -/
theorem AtPulse.sampledBits_eq {f : Frx} (h : AtPulse p m r f) (legal : paramsLegal p = true) (level : Bool) :
    sampledBits p level f = if m < 24 ∧ r + 1 = p.tSample then f.sbits.set f.n level else f.sbits := by
  obtain ⟨-, hK1, hK1', -⟩ := (paramsLegal_iff p).mp legal
  refine if_congr ?_ rfl rfl
  rw [h.seq, phaseAt_eq_bitHigh_iff, h.tmr]
  constructor
  · rintro ⟨⟨hm, hr⟩, ht⟩
    rw [if_pos hr] at ht
    omega
  · rintro ⟨hm, hr⟩
    rw [if_pos (by omega)]
    omega

theorem EdgeOf.sbits (e : EdgeOf u v) (hbusy : u.frx.seq ≠ .idle) :
    v.frx.sbits = sampledBits u.par (din u.par u.dev.line u.frx) u.frx := by
  rw [e.busy hbusy]
  exact sequencer_sbits _ _ _

/-- The bits taken after the edge: K1 puts the sample edge where S levels back the line is the pulse's bit. -/
theorem Delivers.bits_after (h : Delivers p w m r u) (hp : u.par = p) (place : AtPulse p m r u.frx) (e : EdgeOf u v)
    (legal : paramsLegal p = true) (i : Fin 24) (hi : i.val < m ∨ i.val = m ∧ p.tSample ≤ r + 1) :
    v.frx.sbits[i.val] = w[i.val] := by
  subst hp
  obtain ⟨-, hK1, hK1', -⟩ := (paramsLegal_iff _).mp legal
  rw [e.sbits place.busy, place.sampledBits_eq legal]
  split
  next hsample =>
    obtain ⟨hm, hr⟩ := hsample
    have hdin : din u.par u.dev.line u.frx = w[m] := din_eq_of_level (h.levels hm _ le_rfl (by omega))
    have hn : u.frx.n.val = m := place.data hm
    rw [Vector.getElem_set]
    split
    next hni =>
      have him : i.val = m := by omega
      simp only [hdin, him]
    next hni => exact h.bits i (.inl (by omega))
  next hsample => exact h.bits i (by omega)

/-- The line the device drives after an edge. -/
theorem EdgeOf.line (e : EdgeOf u v) : v.dev.line = lineLevel u.par u.draws v.dev := by
  rw [e.dev]
  exact deviceEdge_line _ _ _ _ _

theorem Delivers.inside {start : Frx} (h : Delivers p w m r u) (place : InFrame p start m r u.frx) (e : EdgeOf u v)
    (hp : u.par = p) (legal : paramsLegal p = true) (hr : r + 1 < p.tHigh + p.tLow) : Delivers p w m (r + 1) v := by
  have place' := place.inside e hp hr
  have sends (hm : m < 24) : Sends p w m (r + 1) v.dev := by
    rw [e.dev, hp, place.sck, place'.sck]
    exact (h.sends hm).inside legal hm hr
  refine ⟨sends, fun hm i hi hlevel => ?_, h.bits_after hp place.toAtPulse e legal⟩
  cases i with
  | zero =>
    rw [List.getElem?_cons_zero, e.line, hp]
    exact congrArg some ((sends hm).line hm (by omega))
  | succ i =>
    rw [e.level (hp ▸ hi)]
    exact h.levels hm i (by omega) (by omega)

theorem Delivers.next {start : Frx} (h : Delivers p w m r u) (place : InFrame p start m r u.frx) (e : EdgeOf u v)
    (hp : u.par = p) (legal : paramsLegal p = true) (hr : r + 1 = p.tHigh + p.tLow) (hm : m + 1 < 24 + pulses start.gain) :
    Delivers p w (m + 1) 0 v := by
  obtain ⟨⟨hhigh, hlow, -⟩, hK1, hK1', -⟩ := (paramsLegal_iff p).mp legal
  have place' := place.next e hp legal hr hm
  have sends (hm : m + 1 < 24) : Sends p w (m + 1) 0 v.dev := by
    rw [e.dev, hp, place.sck, place'.sck, decide_eq_true (show 0 < p.tHigh from hhigh)]
    exact (h.sends (by omega)).next legal (by omega) hr
  refine ⟨sends, fun hm i hi hlevel => ?_, fun i hi => h.bits_after hp place.toAtPulse e legal i (by omega)⟩
  obtain rfl : i = 0 := by omega
  rw [List.getElem?_cons_zero, e.line, hp]
  exact congrArg some ((sends hm).line hm (by omega))

/-- The edge of a ready test that succeeds begins the delivery of the conversion that waits. -/
theorem delivers_start {s : State} (e : EdgeOf s v) (legal : paramsLegal s.par = true) (hwas : s.frx.sckQ = false)
    (hnow : v.frx.sckQ = true) (hon : s.dev.on = true) (havail : s.dev.avail = true) (hc : s.dev.c = 0)
    (hstray : s.dev.stray = 0) (hh : s.dev.h = 0) (hw : s.dev.window = 0) : Delivers s.par s.dev.w 0 0 v := by
  obtain ⟨-, hK1, -⟩ := (paramsLegal_iff _).mp legal
  have sends : Sends s.par s.dev.w 0 0 v.dev := by
    rw [e.dev, hwas, hnow]
    exact sends_begins legal hon havail hc hstray hh hw
  refine ⟨fun _ => sends, fun hm i hi hlevel => ?_, fun i hi => by omega⟩
  obtain rfl : i = 0 := by omega
  rw [List.getElem?_cons_zero, e.line]
  exact congrArg some (sends.line hm (by omega))

/-- Past the last data pulse all 24 bits are taken. -/
theorem Delivers.all (h : Delivers p w m r u) (hm : 24 ≤ m) : u.frx.sbits = w :=
  Vector.ext fun i hi => h.bits ⟨i, hi⟩ (.inl (by omega))

end sampler

/-! ## The acquisition -/

/-- A successful ready test asserts the clock for data pulse 0 (R114). -/
theorem EdgeOf.ready {s v : State} (e : EdgeOf s v) (hs : s.frx.seq = .wait)
    (hready : din s.par s.dev.line s.frx = s.par.readyLevel) :
    v.frx =
      { s.frx with
        n := 0, seq := .bitHigh, tmr := s.par.tHigh, sckQ := true
        done := v.frx.done, ovr := v.frx.ovr, sync := v.frx.sync } := by
  have hv := e.busy (by simp [hs])
  rw [sequencer_wait hs, waitReady_ready hready] at hv
  exact hv

/-- Settles O53: the ready test begins the frame, every edge carries the word on, and the frame's end records it. -/
theorem frameDeliversTheDevicesWord : Obligations.FrameDeliversTheDevicesWord := by
  unfold Obligations.FrameDeliversTheDevicesWord
  intro s hinv hs hop hready hon havail hc hstray hh hrst
  have legal := hinv.runnable.1
  obtain ⟨⟨hhigh, -⟩, -⟩ := (paramsLegal_iff _).mp legal
  have hdiscard : s.frx.discard = false := (hinv.block.discard (by rw [hs]; rfl)).mpr hop
  have hsck : s.frx.sckQ = false := by rw [hinv.block.clock, hs]; rfl
  obtain ⟨s₁, hstep⟩ := step_answers hinv.runnable.1 hinv.runnable.2
  rw [Nat.add_comm 1] at hrst ⊢
  obtain ⟨-, e₁⟩ := edgeOf_of_step hstep (nextInput_ne_rst hrst)
  have hs₁ := e₁.ready hs hready
  have hgain : s₁.frx.gain = s.frx.gain := by rw [hs₁]
  have place : InFrame s.par s₁.frx 0 0 s₁.frx := by
    refine inFrame_start legal ?_ ?_ ?_ ?_ <;> rw [hs₁]
  have delivery : Delivers s.par s.dev.w 0 0 s₁ :=
    delivers_start e₁ legal hsck (by rw [hs₁]) hon havail hc hstray hh (hinv.device.frameOpen.mp hc)
  obtain ⟨-, u, v, hrun, hpar, ⟨last, delivered⟩, e⟩ :=
    runPulses (Q := fun m r u => InFrame s.par s₁.frx m r u.frx ∧ Delivers s.par s.dev.w m r u)
      (N := 24 + pulses s.frx.gain) (by omega) (by omega) (e₁.runnable hinv.runnable) (e₁.noRstFor hrst) ⟨place, delivery⟩
      (fun m r u v hr hpar h e =>
        ⟨h.1.inside e (hpar.trans e₁.par) hr, h.2.inside h.1 e (hpar.trans e₁.par) legal hr⟩)
      (fun m r u v hr hm hpar h e =>
        ⟨h.1.next e (hpar.trans e₁.par) legal hr (hgain ▸ hm), h.2.next h.1 e (hpar.trans e₁.par) legal hr (hgain ▸ hm)⟩)
  have hP := pulses_pos s.frx.gain
  have hbits : u.frx.sbits = s.dev.w := delivered.all (by omega)
  have hkept : frameSettings u.frx = frameSettings s.frx := last.kept.trans (by rw [hs₁]; rfl)
  simp only [frameSettings, Prod.mk.injEq] at hkept
  obtain ⟨hbitord, hbyteord, hgainu, hdevg, hdisc⟩ := hkept
  refine ⟨v, (runEdges_cons hstep).trans hrun, ?_⟩
  rw [last.ends e (hpar.trans e₁.par) legal (by omega) (by rw [hgain]; omega)]
  simp [frameEnd, recordSample, hdisc, hdiscard, hbits, hbitord, hbyteord, hgainu, hdevg]

end Sys2Proof.Proofs
end

section
/-! PROOFS of 42_frame_acquisition.md. The deserializer as a permutation of 24 places, the decoder as the two's-complement
value, and the commands of the frame sequence: the edge that accepts NOP or ACQUIRE, and the edge that records a frame. -/

namespace Sys2Proof.Proofs

open Sys2Proof.Machine Sys2Proof.Safety Sys2Proof.Laws

/-! ## ASSEMBLE -/

/-- The place, counted from the least significant end, of the i-th of n received items (bits of a byte, bytes of a frame). -/
def placeOf {n : Nat} : Order → Fin n → Fin n
  | .msbFirst, i => i.rev
  | .lsbFirst, i => i

theorem placeOf_placeOf {n : Nat} (order : Order) (i : Fin n) : placeOf order (placeOf order i) = i := by
  cases order with
  | msbFirst => exact i.rev_rev
  | lsbFirst => rfl

/-- R143's byte is the number whose binary digits are the received bits, each at its place. -/
theorem receivedByte_eq_ofBits (order : Order) (s : SerialBits) (j : Fin 3) :
    receivedByte order s j = BitVec.ofNat 8 (Nat.ofBits fun i : Fin 8 => s[8 * j.val + (placeOf order i).val]) := by
  unfold receivedByte
  congr 1
  cases order <;> simp [bitValue, bitWeight, placeOf, Nat.ofBits, Fin.foldr_succ, Fin.rev] <;> omega

theorem getLsbD_receivedByte (order : Order) (s : SerialBits) (j : Fin 3) (i : Fin 8) :
    (receivedByte order s j).getLsbD (placeOf order i).val = s[8 * j.val + i.val] := by
  rw [receivedByte_eq_ofBits, BitVec.getLsbD_ofNat, Nat.testBit_ofBits_lt _ _ (placeOf order i).isLt]
  simp [placeOf_placeOf]

/-- Bit b of each of three bytes put one after another. -/
theorem getLsbD_threeBytes (x y z : BitVec 8) {b : Nat} (hb : b < 8) :
    (x ++ y ++ z).getLsbD (8 * 0 + b) = z.getLsbD b ∧ (x ++ y ++ z).getLsbD (8 * 1 + b) = y.getLsbD b ∧
      (x ++ y ++ z).getLsbD (8 * 2 + b) = x.getLsbD b := by
  simp only [BitVec.getLsbD_append]
  grind

/-- Bit i of received byte j lands in the byte's place by BYTEORD and in the bit's by BITORD (R143). -/
theorem getLsbD_assemble (s : SerialBits) (bitord byteord : Order) (j : Fin 3) (i : Fin 8) :
    (assemble s bitord byteord).getLsbD (8 * (placeOf byteord j).val + (placeOf bitord i).val) = s[8 * j.val + i.val] := by
  rw [← getLsbD_receivedByte bitord s j i]
  cases byteord with
  | msbFirst =>
    obtain ⟨h2, h1, h0⟩ := getLsbD_threeBytes (receivedByte bitord s 0) (receivedByte bitord s 1) (receivedByte bitord s 2)
      (placeOf bitord i).isLt
    fin_cases j
    exacts [h0, h1, h2]
  | lsbFirst =>
    obtain ⟨h0, h1, h2⟩ := getLsbD_threeBytes (receivedByte bitord s 2) (receivedByte bitord s 1) (receivedByte bitord s 0)
      (placeOf bitord i).isLt
    fin_cases j
    exacts [h0, h1, h2]

/-- Settles O36: each placement is `getLsbD_assemble` with the flags' places written out. -/
theorem assemblePlacesEveryBit : Obligations.AssemblePlacesEveryBit := by
  unfold Obligations.AssemblePlacesEveryBit
  intro s j i
  have hbyte : 2 - j.val = j.rev.val := by rw [Fin.val_rev]; omega
  have hbit : 7 - i.val = i.rev.val := by rw [Fin.val_rev]; omega
  rw [hbyte, hbit]
  exact ⟨getLsbD_assemble s .msbFirst .msbFirst j i, getLsbD_assemble s .lsbFirst .msbFirst j i,
    getLsbD_assemble s .msbFirst .lsbFirst j i, getLsbD_assemble s .lsbFirst .lsbFirst j i⟩

/-- The frame bit that takes the bit received n-th (R143). -/
def landing (bitord byteord : Order) (n : Fin 24) : Fin 24 :=
  ⟨8 * (placeOf byteord (⟨n / 8, by omega⟩ : Fin 3)).val + (placeOf bitord (⟨n % 8, by omega⟩ : Fin 8)).val, by omega⟩

/-- A landing undoes itself, as each flag's place does (R144). -/
theorem landing_landing (bitord byteord : Order) (n : Fin 24) :
    landing bitord byteord (landing bitord byteord n) = n := by
  ext
  simp [landing, Nat.mul_add_div, Nat.div_eq_of_lt, Nat.mod_eq_of_lt, placeOf_placeOf, Nat.div_add_mod]

theorem getElem_assemble_landing (s : SerialBits) (bitord byteord : Order) (n : Fin 24) :
    (assemble s bitord byteord)[landing bitord byteord n] = s[n] := by
  have h := getLsbD_assemble s bitord byteord ⟨n / 8, by omega⟩ ⟨n % 8, by omega⟩
  simp only [Nat.div_add_mod] at h
  exact h

/-- The received bits of a frame: the bit received n-th is read where it landed (R144). -/
def disassemble (bitord byteord : Order) (frame : Frame) : SerialBits :=
  Vector.ofFn fun n => frame[landing bitord byteord n]

theorem disassemble_assemble (bitord byteord : Order) (s : SerialBits) :
    disassemble bitord byteord (assemble s bitord byteord) = s := by
  ext n hn
  rw [disassemble, Vector.getElem_ofFn]
  exact getElem_assemble_landing s bitord byteord ⟨n, hn⟩

theorem assemble_disassemble (bitord byteord : Order) (frame : Frame) :
    assemble (disassemble bitord byteord frame) bitord byteord = frame := by
  have hbit (n : Fin 24) : (assemble (disassemble bitord byteord frame) bitord byteord)[n] = frame[n] := by
    rw [← landing_landing bitord byteord n, getElem_assemble_landing]
    exact Vector.getElem_ofFn _
  exact BitVec.eq_of_getElem_eq fun n hn => hbit ⟨n, hn⟩

/-- Settles O37: ASSEMBLE moves bits along a permutation that undoes itself, so it has an inverse. -/
theorem assembleIsABijection : Obligations.AssembleIsABijection := by
  unfold Obligations.AssembleIsABijection
  intro bitord byteord
  exact Function.bijective_iff_has_inverse.mpr
    ⟨disassemble bitord byteord, disassemble_assemble bitord byteord, assemble_disassemble bitord byteord⟩

/-! ## DECODE -/

/-- R145's value is the two's-complement value of the frame. -/
theorem sampleValue_eq_toInt (frame : Frame) : sampleValue frame = frame.toInt := by
  rw [sampleValue, BitVec.toInt_eq_msb_cond, BitVec.msb_eq_getLsbD_last]
  rfl

theorem dataWord_eq_signExtend (frame : Frame) : dataWord frame = frame.signExtend 32 :=
  congrArg (BitVec.ofInt 32) (sampleValue_eq_toInt frame)

/-- Widened to 32 bits the value is kept: DATA neither wraps nor saturates (R145). -/
theorem toInt_dataWord (frame : Frame) : (dataWord frame).toInt = sampleValue frame := by
  rw [dataWord_eq_signExtend, BitVec.toInt_signExtend_of_le (by decide), sampleValue_eq_toInt]

/-- Settles O38: DATA's value is the frame's, and RAW's the frame's without sign. -/
theorem decodeIsTwosComplement : Obligations.DecodeIsTwosComplement := by
  unfold Obligations.DecodeIsTwosComplement
  intro frame
  have hlow : -(2 : Int) ^ 23 ≤ frame.toInt := BitVec.le_toInt frame
  have hhigh : frame.toInt < (2 : Int) ^ 23 := BitVec.toInt_lt
  rw [← sampleValue_eq_toInt, ← toInt_dataWord] at hlow hhigh
  exact ⟨toInt_dataWord frame, dataWord_eq_signExtend frame, BitVec.toNat_setWidth_of_le (by decide), hlow, by omega⟩

/-! ## The gain-pulse encoder -/

/-- Settles O39: the table row by row; each code is read back by `gainOfCode_gainCode`. -/
theorem gainPulseTable : Obligations.GainPulseTable := by
  unfold Obligations.GainPulseTable
  exact ⟨⟨rfl, rfl, rfl, rfl⟩, ⟨rfl, rfl, rfl, rfl⟩, ⟨rfl, rfl, rfl, rfl⟩, gainOfCode_eq_none.mpr rfl, gainOfCode_gainCode⟩

/-! ## NOP, ACQUIRE and the end of a frame -/

/-- `frame_end` of a sample frame (R152). -/
theorem frameEnd_sample {f : Frx} (h : f.discard = false) :
    frameEnd f =
      { f with
        raw := (assemble f.sbits f.bitord f.byteord).zeroExtend 32
        data := (assemble f.sbits f.bitord f.byteord).signExtend 32
        dtag := f.devg, valid := true, devg := some f.gain, sckQ := false
        seq := .idle, op := .none, done := true, err := .ok } := by
  simp [frameEnd, recordSample, h, rawWord, dataWord_eq_signExtend, setSck, complete]

/-- `frame_end` of a discard frame (R152). -/
theorem frameEnd_discard {f : Frx} (h : f.discard = true) :
    frameEnd f =
      { f with devg := some f.gain, sckQ := false, seq := .idle, op := .none, done := true, err := .ok } := by
  simp [frameEnd, recordSample, h, setSck, complete]

/-- Settles O33: the last gain pulse's low phase ends with `frame_end`. -/
theorem frameEndRecordsTheFrame : Obligations.FrameEndRecordsTheFrame := by
  unfold Obligations.FrameEndRecordsTheFrame
  intro i s h hs htmr hk
  obtain ⟨t, ht, hframe⟩ := exec_busy i h
  have hblock := hframe (by simp [hs])
  rw [steppedBlock, sequencer_pulseLow_ends hs htmr, pulseLowEnd_last hk] at hblock
  refine ⟨t, ht, fun hd => ?_, fun hd => ?_⟩
  · simpa [frameEnd_sample hd] using hblock
  · simpa [frameEnd_discard hd] using hblock

/-- Settles O21: an idle block runs NOP's start step; a busy one drops the word as any CMD write (R65). -/
theorem nopCompletesAtOnce : Obligations.NopCompletesAtOnce := by
  unfold Obligations.NopCompletesAtOnce
  refine ⟨rfl, fun s h => ⟨fun hs => ?_, fun hbusy => ?_⟩⟩
  · exact answers_of_idle .nop h hs (by rw [accessEffect, writeWhenIdle_idle hs]; rfl)
  · exact busyWritesAreDropped s .nop h hbusy (by decide) (by decide)

/-- Settles O22: ACQUIRE's start step, in each power state. -/
theorem acquireStartsASampleFrame : Obligations.AcquireStartsASampleFrame := by
  unfold Obligations.AcquireStartsASampleFrame
  intro s h hs
  refine ⟨fun hp => answers_of_idle .acquire h hs ?_, fun hp => answers_of_idle .acquire h hs ?_⟩
  · rw [accessEffect, writeWhenIdle_idle hs, startAcquire_active hp]; rfl
  · rw [accessEffect, writeWhenIdle_idle hs, startAcquire_poweredDown hp]; rfl

end Sys2Proof.Proofs
end

section
/-! PROOFS of 43_gain_and_power.md, part one. The edge that accepts SET_GAIN or a power command, the edge that ends a power
phase, and what a step can do to GAIN, PWR and the clock. -/

namespace Sys2Proof.Proofs

open Sys2Proof.Machine Sys2Proof.Safety Sys2Proof.Laws

/-! ## Acceptance -/

/-- Settles O23: the code's gain, in each power state. -/
theorem setGainWritesGainAndDiscardsAFrame : Obligations.SetGainWritesGainAndDiscardsAFrame := by
  unfold Obligations.SetGainWritesGainAndDiscardsAFrame
  intro s gsel g h hs hg
  have hcode : gainOfCode gsel = some g := by
    simp only [List.mem_cons, List.not_mem_nil, or_false, Prod.mk.injEq] at hg
    obtain ⟨rfl, rfl⟩ | ⟨rfl, rfl⟩ | ⟨rfl, rfl⟩ := hg <;> rfl
  have heffect : accessEffect s.par (.setGain gsel) s.frx = startSetGain g s.frx := by
    rw [accessEffect, writeWhenIdle_idle hs, startSetGainCode_of_gain hcode]
  refine ⟨fun hp => answers_of_idle (.setGain gsel) h hs ?_, fun hp => answers_of_idle (.setGain gsel) h hs ?_⟩
  · rw [heffect, startSetGain_active g hp]; rfl
  · rw [heffect, startSetGain_poweredDown g hp]; rfl

/-- Settles O26: POWER_DOWN's start step, in each power state. -/
theorem powerDownStartsItsLowPhase : Obligations.PowerDownStartsItsLowPhase := by
  unfold Obligations.PowerDownStartsItsLowPhase
  intro s h hs
  refine ⟨fun hp => answers_of_idle .powerDown h hs ?_, fun hp => answers_of_idle .powerDown h hs ?_⟩
  · rw [accessEffect, writeWhenIdle_idle hs, startPowerDown_active s.par hp]; rfl
  · rw [accessEffect, writeWhenIdle_idle hs, startPowerDown_poweredDown s.par hp]; rfl

/-- Settles O27: POWER_UP's start step does not look at PWR. -/
theorem powerUpStartsItsSettle : Obligations.PowerUpStartsItsSettle := by
  unfold Obligations.PowerUpStartsItsSettle
  intro s h hs
  exact answers_of_idle .powerUp h hs (by rw [accessEffect, writeWhenIdle_idle hs]; rfl)

/-- Settles O28: RESET_DEV's start step, in each power state. -/
theorem resetDevStartsTheHalfItNeeds : Obligations.ResetDevStartsTheHalfItNeeds := by
  unfold Obligations.ResetDevStartsTheHalfItNeeds
  intro s h hs
  refine ⟨fun hp => answers_of_idle .resetDev h hs ?_, fun hp => answers_of_idle .resetDev h hs ?_⟩
  · rw [accessEffect, writeWhenIdle_idle hs, startResetDev_active s.par hp]; rfl
  · rw [accessEffect, writeWhenIdle_idle hs, startResetDev_poweredDown s.par hp]; rfl

/-! ## The end of a power phase -/

section phases
variable {p : Params} {level : Bool} {f : Frx}

theorem sequencer_pdLow_ends (hs : f.seq = .pdLow) (ht : f.tmr = 1) : sequencer p level f = pdLowEnd p f := by
  simp [sequencer, hs, timed, ht]

theorem sequencer_pdHold_ends (hs : f.seq = .pdHold) (ht : f.tmr = 1) : sequencer p level f = pdHoldEnd p f := by
  simp [sequencer, hs, timed, ht]

theorem sequencer_puSettle_ends (hs : f.seq = .puSettle) (ht : f.tmr = 1) : sequencer p level f = puSettleEnd f := by
  simp [sequencer, hs, timed, ht]

theorem pdHoldEnd_resetDev (h : f.op = .resetDev) :
    pdHoldEnd p f = setSck false (enter .puSettle p.tPu { f with pwr := .poweredDown, devg := some .g128 }) :=
  if_pos h

theorem pdHoldEnd_completes (h : f.op ≠ .resetDev) :
    pdHoldEnd p f = complete .ok { f with pwr := .poweredDown, devg := some .g128 } :=
  if_neg h

theorem puSettleEnd_startsFrame (h : f.op = .init ∨ f.gain ≠ .g128) :
    puSettleEnd f = startFrame true { f with pwr := .active } :=
  if_pos h

theorem puSettleEnd_completes (hop : f.op ≠ .init) (hgain : f.gain = .g128) :
    puSettleEnd f = complete .ok { f with pwr := .active } :=
  if_neg (by simp [hop, hgain])

theorem pdHoldEnd_pwr (p : Params) (f : Frx) : (pdHoldEnd p f).pwr = .poweredDown := by
  unfold pdHoldEnd
  dsimp only
  split <;> rfl

theorem puSettleEnd_pwr (f : Frx) : (puSettleEnd f).pwr = .active := by
  unfold puSettleEnd
  dsimp only
  split <;> rfl

end phases

/-- Settles O34: PD_LOW's end action, and PD_HOLD's for RESET_DEV and for POWER_DOWN. -/
theorem powerDownPhasesEnd : Obligations.PowerDownPhasesEnd := by
  unfold Obligations.PowerDownPhasesEnd
  intro i s h htmr
  obtain ⟨t, ht, hframe⟩ := exec_busy i h
  refine ⟨t, ht, fun hs => ?_, fun hs hop => ?_, fun hs hop => ?_⟩
  · have hblock := hframe (by simp [hs])
    simpa [steppedBlock, sequencer_pdLow_ends hs htmr, pdLowEnd, enter, setSck] using hblock
  · have hblock := hframe (by simp [hs])
    simpa [steppedBlock, sequencer_pdHold_ends hs htmr, pdHoldEnd_resetDev hop, enter, setSck] using hblock
  · have hblock := hframe (by simp [hs])
    simpa [steppedBlock, sequencer_pdHold_ends hs htmr, pdHoldEnd_completes hop, complete] using hblock

/-- Settles O35: PU_SETTLE's end action, with and without a frame. -/
theorem powerUpSettleEnds : Obligations.PowerUpSettleEnds := by
  unfold Obligations.PowerUpSettleEnds
  intro i s h hs htmr
  obtain ⟨t, ht, hframe⟩ := exec_busy i h
  have hblock := hframe (by simp [hs])
  rw [steppedBlock, sequencer_puSettle_ends hs htmr] at hblock
  refine ⟨t, ht, fun hmore => ?_, fun hop hgain => ?_⟩
  · simpa [puSettleEnd_startsFrame hmore, startFrame] using hblock
  · simpa [puSettleEnd_completes hop hgain, complete] using hblock

/-! ## GAIN -/

/-- Of the verdicts SET_GAIN's alone writes GAIN (R171). -/
theorem startVerdict_gain (p : Params) (d : Verdict) (f : Frx) :
    d = .setGain (startVerdict p d f).gain ∨ (startVerdict p d f).gain = f.gain := by
  cases d with
  | illegal | badGain | nop | powerUp => exact .inr rfl
  | acquire => right; simp only [startVerdict, startAcquire]; split <;> rfl
  | setGain g => left; simp only [startVerdict, startSetGain]; split <;> rfl
  | powerDown => right; simp only [startVerdict, startPowerDown]; split <;> rfl
  | resetDev => right; simp only [startVerdict, startResetDev]; split <;> rfl

/-- An access is a write of CMD, or leaves GAIN. -/
theorem access_writesCmd_or_keepsGain (s : State) (i : Instr) :
    (∃ v, portSignals (encode i) = ⟨true, 1, v⟩ ∧ accessEffect s.par i = accessEffect s.par (.wrCmd v)) ∨
      ∀ f, (accessEffect s.par i f).gain = f.gain := by
  have command {v : Word} (h : encode i = .cmd32 v) :
      ∃ v, portSignals (encode i) = ⟨true, 1, v⟩ ∧ accessEffect s.par i = accessEffect s.par (.wrCmd v) :=
    ⟨v, by rw [h]; rfl, (access_of_cmd32 s h).1⟩
  cases i
  case nop | acquire | setGain | badGain | powerDown | powerUp | resetDev | illegalOp6 | illegalOp7 =>
    exact .inl (command rfl)
  case wrCmd v => exact .inl ⟨v, rfl, rfl⟩
  case wrCfg | wrTimeout => right; intro f; simp only [accessEffect, writeWhenIdle]; split <;> rfl
  all_goals exact .inr fun _ => rfl

/-- An access that changes an idle block's GAIN is the write of a SET_GAIN word, whichever host word brings it (R99, R171). -/
theorem gainWrite_of_access {s : State} {w : HostWord} (hs : s.frx.seq = .idle)
    (hchange : (accessEffect s.par (decode w) s.frx).gain ≠ s.frx.gain) :
    (portSignals w).wrEn = true ∧ (portSignals w).addr = 1 ∧
      verdict (portSignals w).wdata = .setGain (accessEffect s.par (decode w) s.frx).gain := by
  obtain ⟨v, hport, heffect⟩ | hkeeps := access_writesCmd_or_keepsGain s (decode w)
  · obtain ⟨hwr, haddr, hdata⟩ := encodeOfDecodeDrivesTheSamePort w
    rw [hport] at hwr haddr hdata
    rw [heffect, accessEffect, writeWhenIdle_idle hs] at hchange ⊢
    refine ⟨hwr.symm, haddr.symm, ?_⟩
    rw [← hdata hwr.symm]
    exact (startVerdict_gain s.par (verdict v) s.frx).resolve_right hchange
  · exact absurd (hkeeps s.frx) hchange

/-- A step without `rst` that is no bus access does to the block what an edge with no access does (R100, R102). -/
theorem step_frx_cases {s t : State} (h : step s = .next t) (hrst : nextInput s ≠ .rst) :
    (∃ w, nextInput s = .access w ∧ t.frx = blockEdge s.par s.dev.line (accessEffect s.par (decode w)) s.frx) ∨
      t.frx = blockEdge s.par s.dev.line (fun f => f) s.frx := by
  obtain ⟨hr, -⟩ := edgeOf_of_step h hrst
  unfold step at h
  cases hx : nextInput s with
  | rst => exact absurd hx hrst
  | idle =>
    rw [hx, presentInput, idleEdge_runnable hr] at h
    exact .inr (Host.Outcome.next.inj h ▸ rfl)
  | access w =>
    rw [hx, presentInput, exec_runnable _ hr.1 hr.2] at h
    exact .inl ⟨w, rfl, Host.Outcome.next.inj h ▸ rfl⟩
  | poll field value =>
    rw [hx, presentInput, pollEdge_runnable field value hr] at h
    exact .inr (Host.Outcome.next.inj h ▸ rfl)

/-- Settles O41: a busy block keeps its settings (O43), and of an idle one's accesses only a SET_GAIN word's writes GAIN. -/
theorem onlySetGainWritesGain : Obligations.OnlySetGainWritesGain := by
  unfold Obligations.OnlySetGainWritesGain
  intro s t hstep hchange
  by_cases hrst : nextInput s = .rst
  · obtain ⟨-, -, rfl⟩ | ⟨h, -⟩ := step_next_cases hstep
    · exact .inl ⟨hrst, rfl⟩
    · exact absurd hrst h
  have hs : s.frx.seq = .idle := by
    by_contra hbusy
    obtain ⟨-, -, -, hgain, -⟩ := settingsHoldWhileBusy s t hstep hrst hbusy
    exact hchange hgain
  obtain ⟨w, hw, ht⟩ | ht := step_frx_cases hstep hrst <;> rw [blockEdge_idle hs] at ht
  · have hgain : t.frx.gain = (accessEffect s.par (decode w) s.frx).gain := by rw [ht]
    obtain ⟨hwr, haddr, hv⟩ := gainWrite_of_access hs (hgain ▸ hchange)
    rw [← hgain, verdict_legal_iff (by simp)] at hv
    exact .inr ⟨hs, w, hw, hwr, haddr, by simpa [listedVerdicts] using hv⟩
  · exact absurd (by rw [ht]) hchange

/-! ## PWR and the clock -/

/-- The last edge of PD_HOLD or of PU_SETTLE. -/
def PowerPhaseEnds (f : Frx) : Prop := (f.seq = .pdHold ∨ f.seq = .puSettle) ∧ f.tmr = 1

/-- No access to an idle block writes PWR. -/
theorem idleOutcome_pwr {p : Params} {f g : Frx} (h : IdleOutcome p f g) : g.pwr = f.pwr := by
  cases h <;> rfl

/-- No phase writes PWR but at those two ends (R181, R187). -/
theorem sequencer_pwr (p : Params) (level : Bool) {f : Frx} (h : ¬ PowerPhaseEnds f) : (sequencer p level f).pwr = f.pwr := by
  cases hs : f.seq with
  | idle => simp [sequencer, hs]
  | pdLow | pulseHigh => simp only [sequencer, hs]; exact timed_keeps Frx.pwr rfl fun _ => rfl
  | pdHold => simp only [sequencer, hs]; exact timed_keeps Frx.pwr rfl fun ht => absurd ⟨.inl hs, ht⟩ h
  | puSettle => simp only [sequencer, hs]; exact timed_keeps Frx.pwr rfl fun ht => absurd ⟨.inr hs, ht⟩ h
  | wait => rw [sequencer_wait hs, waitReady]; split <;> [rfl; (split <;> rfl)]
  | bitHigh =>
    obtain ⟨bits, hb⟩ := sampleBit_eq p level f
    simp only [sequencer, hs, hb]
    exact timed_keeps Frx.pwr rfl fun _ => rfl
  | bitLow =>
    simp only [sequencer, hs]
    exact timed_keeps Frx.pwr rfl fun _ => by rw [bitLowEnd]; split <;> rfl
  | pulseLow =>
    simp only [sequencer, hs]
    exact timed_keeps Frx.pwr rfl fun _ => by rw [pulseLowEnd]; split <;> [rfl; exact recordSample_pwr]

/-- Settles O45: neither an access nor a phase changes PWR before its power phase ends, and each end writes its own state. -/
theorem powerChangesOnlyAsAPowerPhaseEnds : Obligations.PowerChangesOnlyAsAPowerPhaseEnds := by
  unfold Obligations.PowerChangesOnlyAsAPowerPhaseEnds
  intro s t hstep hrst hchange
  obtain ⟨-, e⟩ := edgeOf_of_step hstep hrst
  by_cases hs : s.frx.seq = .idle
  · obtain ⟨i, hi⟩ := e.block
    rw [hi, blockEdge_idle hs] at hchange
    exact absurd (idleOutcome_pwr (accessEffect_idle s.par i hs)) hchange
  have hpwr : t.frx.pwr = (sequencer s.par (din s.par s.dev.line s.frx) s.frx).pwr := by rw [e.busy hs]
  have hends : PowerPhaseEnds s.frx := by
    by_contra h
    exact hchange (hpwr.trans (sequencer_pwr _ _ h))
  obtain ⟨hseq | hseq, htmr⟩ := hends
  · rw [sequencer_pdHold_ends hseq htmr, pdHoldEnd_pwr] at hpwr
    exact .inl ⟨hseq, htmr, hpwr⟩
  · rw [sequencer_puSettle_ends hseq htmr, puSettleEnd_pwr] at hpwr
    exact .inr ⟨hseq, htmr, hpwr⟩

/-- An access to an idle block that is POWERED_DOWN lowers the clock only into PU_SETTLE (R178, R185). -/
theorem idleOutcome_falls {p : Params} {f g : Frx} (h : IdleOutcome p f g) (hdown : f.pwr = .poweredDown)
    (hwas : f.sckQ = true) (hnow : g.sckQ = false) : g.seq = .puSettle ∧ g.tmr = p.tPu := by
  have low (hsame : g.sckQ = f.sckQ) : False := by simp [hwas, hnow] at hsame
  cases h with
  | same | cfg | timeout | status | atOnce | gainOnly | sample | discard => exact (low rfl).elim
  | goDown op fits active => simp [hdown] at active
  | settle => exact ⟨rfl, rfl⟩

/-- PD_HOLD lowers the clock only at its end, for RESET_DEV, into PU_SETTLE (R176). -/
theorem sequencer_pdHold_falls {p : Params} {level : Bool} {f : Frx} (hs : f.seq = .pdHold) (hwas : f.sckQ = true)
    (hnow : (sequencer p level f).sckQ = false) :
    (sequencer p level f).seq = .puSettle ∧ (sequencer p level f).tmr = p.tPu := by
  simp only [sequencer, hs] at hnow ⊢
  obtain ⟨-, h⟩ | ⟨-, h⟩ | ⟨-, h⟩ := timed_cases (pdHoldEnd p) f <;> rw [h] at hnow ⊢
  · simp [hwas] at hnow
  · by_cases hop : f.op = .resetDev
    · rw [pdHoldEnd_resetDev hop]
      exact ⟨rfl, rfl⟩
    · simp [pdHoldEnd_completes hop, hwas] at hnow
  · simp [hwas] at hnow

/-- A block that is POWERED_DOWN with the clock high is idle (R123, R181). -/
theorem idle_of_poweredDown {p : Params} {f : Frx} (h : BlockInv p f) (hdown : f.pwr = .poweredDown) (hsck : f.sckQ = true) :
    f.seq = .idle := by
  have hpower := h.power
  have hclock := h.clock
  cases hs : f.seq with
  | idle => rfl
  | puSettle => simp [hs, clockLevel, hsck] at hclock
  | pdLow | pdHold | wait | bitHigh | bitLow | pulseHigh | pulseLow => simp [hs, framePhase, hdown] at hpower

/-- Settles O46: a reset enters PU_SETTLE itself; else the block is in PD_HOLD or idle, and each lowers the clock only so. -/
theorem onlyPowerUpWakesTheDevice : Obligations.OnlyPowerUpWakesTheDevice := by
  unfold Obligations.OnlyPowerUpWakesTheDevice
  intro s t hinv hstep hdown hwas hnow
  by_cases hrst : nextInput s = .rst
  · obtain ⟨-, -, rfl⟩ | ⟨h, -⟩ := step_next_cases hstep
    · exact ⟨rfl, rfl⟩
    · exact absurd hrst h
  obtain ⟨-, e⟩ := edgeOf_of_step hstep hrst
  by_cases hs : s.frx.seq = .pdHold
  · rw [e.busy (by simp [hs])] at hnow ⊢
    exact sequencer_pdHold_falls hs hwas hnow
  · have hpwr := hdown.resolve_left hs
    have hidle := idle_of_poweredDown hinv.block hpwr hwas
    obtain ⟨i, hi⟩ := e.block
    rw [hi, blockEdge_idle hidle] at hnow ⊢
    have hfalls := idleOutcome_falls (accessEffect_idle s.par i hidle) hpwr hwas hnow
    exact hfalls

end Sys2Proof.Proofs
end

section
/-! PROOFS of 43_gain_and_power.md, part two. The runs of POWER_DOWN and of RESET_DEV: the clock goes low and then high, the
device goes down with it, and RESET_DEV lowers the clock once more and wakes the device. -/

namespace Sys2Proof.Proofs

open Sys2Proof.Machine Sys2Proof.Safety Sys2Proof.Laws

/-! ## What the device makes of a held clock -/

section device
variable {p : Params} {draw : Nat} {was now : Bool} {d : Device}

@[simp] theorem offerConversion_on : (offerConversion draw d).on = d.on := by
  unfold offerConversion
  split <;> rfl

@[simp] theorem offerConversion_h : (offerConversion draw d).h = d.h := by
  unfold offerConversion
  split <;> rfl

/-- A device that does not power down stays on. -/
theorem deviceOn_on {rise : Bool} (hon : d.on = true) (hh : d.h < p.tDevPd) : (deviceOn p draw rise d).on = true := by
  rw [deviceOn_staysOn hh]
  cases rise <;> simp [hon]

theorem deviceOn_h {rise : Bool} : (deviceOn p draw rise d).h = d.h := by
  obtain hh | hh := le_or_gt p.tDevPd d.h
  · obtain ⟨e, he, -, hdown⟩ := deviceOn_powersDown (draw := draw) (rise := rise) hh
    rw [hdown, ← he]
    rfl
  · rw [deviceOn_staysOn hh]
    cases rise <;> simp

/-- On or off, the device counts the cycles the clock has been high (R130). -/
theorem deviceEdge_h : (deviceEdge p draw was now d).h = if now then d.h + 1 else 0 := by
  cases hon : d.on
  · obtain ⟨e, he, hcases⟩ := deviceEdge_off (p := p) (draw := draw) (was := was) (now := now) hon
    rw [he, hcases]
    cases was <;> cases now <;> rfl
  · rw [deviceEdge_on hon]
    exact deviceOn_h

/-- After `T_DEV_PD` cycles of a high clock the device is off, whichever it was before (R130). -/
theorem deviceEdge_off_of_high (hh : p.tDevPd ≤ d.h + 1) : (deviceEdge p draw was true d).on = false := by
  cases hon : d.on
  · exact deviceEdge_staysOff hon (by simp)
  · obtain ⟨e, line, he⟩ := deviceEdge_powersDown (was := was) (now := true) (draw := draw) hon hh
    rw [he]
    rfl

/-- While the clock is low no device goes down. -/
theorem deviceEdge_on_of_low (hpos : 1 ≤ p.tDevPd) (hon : d.on = true) : (deviceEdge p draw was false d).on = true := by
  rw [deviceEdge_on hon]
  exact deviceOn_on hon hpos

end device

/-! ## The block in a command's power phases -/

/-- The block j edges after the acceptance that left it as `start`, in PD_LOW and then in PD_HOLD (R174, R175). -/
structure DownPhases (p : Params) (start : Frx) (j : Nat) (f : Frx) : Prop where
  seq : f.seq = if j < p.tLow then .pdLow else .pdHold
  tmr : f.tmr = if j < p.tLow then p.tLow - j else p.tLow + p.tPd - j
  sck : f.sckQ = decide (p.tLow ≤ j)
  op : f.op = start.op
  held : heldFields f = heldFields start

/-- The block j edges after RESET_DEV's entry to PU_SETTLE, with what the power-down left in DEVG (R176, R179). -/
structure SettlePhase (p : Params) (start : Frx) (j : Nat) (f : Frx) : Prop where
  seq : f.seq = .puSettle
  tmr : f.tmr = p.tPu - j
  sck : f.sckQ = false
  op : f.op = .resetDev
  devg : f.devg = some .g128
  held : heldFields f = heldFields start

/-- No sample register is written but in PULSE_LOW, nor any setting. -/
theorem sequencer_held_of_seq {p : Params} {level : Bool} {f : Frx} (hs : f.seq ≠ .pulseLow) :
    heldFields (sequencer p level f) = heldFields f :=
  sequencer_held p level f fun h => hs h.1

theorem gain_eq_of_held {f g : Frx} (h : heldFields f = heldFields g) : f.gain = g.gain :=
  congrArg (fun fields => fields.1.2.2.2.1) h

section phases
variable {p : Params} {start f : Frx} {level : Bool} {j : Nat}

theorem DownPhases.seq_not_mem (h : DownPhases p start j f) : f.seq ∉ [Phase.idle, .wait, .pulseLow] := by
  rw [h.seq]
  split <;> decide

theorem DownPhases.busy (h : DownPhases p start j f) : f.seq ≠ .idle := fun hs => h.seq_not_mem (by simp [hs])

/-- The place looks at none of the fields that a host or the synchronizer writes. -/
theorem DownPhases.flags {d o : Bool} {chain : List Bool} (h : DownPhases p start j f) :
    DownPhases p start j { f with done := d, ovr := o, sync := chain } :=
  { h with }

theorem SettlePhase.flags {d o : Bool} {chain : List Bool} (h : SettlePhase p start j f) :
    SettlePhase p start j { f with done := d, ovr := o, sync := chain } :=
  { h with }

/-- PD_LOW counts, raises the clock as it ends, and PD_HOLD counts. -/
theorem DownPhases.next (h : DownPhases p start j f) (hj : j + 1 < p.tLow + p.tPd) :
    DownPhases p start (j + 1) (sequencer p level f) := by
  have hseq := h.seq
  have htmr := h.tmr
  have hheld := (sequencer_held_of_seq (p := p) (level := level) fun hs => h.seq_not_mem (by simp [hs])).trans h.held
  by_cases hrise : j + 1 = p.tLow
  · rw [if_pos (by omega)] at hseq htmr
    rw [sequencer_pdLow_ends hseq (by omega)] at hheld ⊢
    exact ⟨by simp [pdLowEnd, hrise], by simp [pdLowEnd, hrise], by simp [pdLowEnd, hrise], h.op, hheld⟩
  · have hlow : j < p.tLow ↔ j + 1 < p.tLow := by omega
    have hhigh : p.tLow ≤ j ↔ p.tLow ≤ j + 1 := by omega
    rw [sequencer_counts (fun hs => h.seq_not_mem (by simp at hs ⊢; tauto)) (by split at htmr <;> omega)] at hheld ⊢
    refine ⟨by simp only [hseq, hlow], ?_, by simp only [h.sck, hhigh], h.op, hheld⟩
    dsimp only
    split at htmr <;> split <;> omega

/-- The last edge of PD_HOLD. -/
theorem DownPhases.last (h : DownPhases p start j f) (hpd : 1 ≤ p.tPd) (hj : j + 1 = p.tLow + p.tPd) :
    f.seq = .pdHold ∧ f.tmr = 1 ∧ f.sckQ = true := by
  have hlow : ¬ j < p.tLow := by omega
  exact ⟨by rw [h.seq, if_neg hlow], by rw [h.tmr, if_neg hlow]; omega, by rw [h.sck]; simp; omega⟩

/-- RESET_DEV goes on to PU_SETTLE. -/
theorem DownPhases.settles (h : DownPhases p start j f) (hpd : 1 ≤ p.tPd) (hj : j + 1 = p.tLow + p.tPd)
    (hop : start.op = .resetDev) : SettlePhase p start 0 (sequencer p level f) := by
  obtain ⟨hseq, htmr, -⟩ := h.last hpd hj
  have hreset : f.op = .resetDev := h.op.trans hop
  rw [sequencer_pdHold_ends hseq htmr, pdHoldEnd_resetDev hreset]
  exact ⟨rfl, rfl, rfl, hreset, rfl, h.held⟩

/-- PU_SETTLE counts. -/
theorem SettlePhase.next (h : SettlePhase p start j f) (hj : j + 1 < p.tPu) :
    SettlePhase p start (j + 1) (sequencer p level f) := by
  have htmr := h.tmr
  rw [sequencer_counts (by simp [h.seq]) (by omega)]
  exact ⟨h.seq, by simp only [htmr]; omega, h.sck, h.op, h.devg, h.held⟩

end phases

/-! ## Block and device together -/

/-- j edges after acceptance: the block's place, and a device that has counted the high clock and is off once it has been high
for `T_DEV_PD` cycles. -/
structure GoingDown (p : Params) (start : Frx) (j : Nat) (u : State) : Prop where
  block : DownPhases p start j u.frx
  high : u.dev.h = j + 1 - p.tLow
  off : p.tDevPd ≤ j + 1 - p.tLow → u.dev.on = false

/-- j edges after the entry to PU_SETTLE: the block's place, and a device that is awake. -/
structure Settling (p : Params) (start : Frx) (j : Nat) (u : State) : Prop where
  block : SettlePhase p start j u.frx
  on : u.dev.on = true

/-- POWER_DOWN has completed, and the device is down (R177). -/
def DownCompleted (t : State) : Prop :=
  t.frx.seq = .idle ∧ t.frx.done = true ∧ t.frx.err = .ok ∧ t.frx.pwr = .poweredDown ∧
    t.frx.devg = some .g128 ∧ t.frx.sckQ = true ∧ t.dev.on = false

/-- RESET_DEV at gain 128 has completed, with the device awake and the sample registers as `start` had them (R186). -/
def ResetCompleted (start : Frx) (t : State) : Prop :=
  t.frx.seq = .idle ∧ t.frx.done = true ∧ t.frx.err = .ok ∧ t.frx.pwr = .active ∧
    t.frx.devg = some .g128 ∧ t.frx.sckQ = false ∧ t.dev.on = true ∧ sampleRegisters t.frx = sampleRegisters start

section machine
variable {p : Params} {start : Frx} {j : Nat} {s u v : State}

/-- The edge that accepts the command starts its power-down half. -/
theorem goingDown_start (e : EdgeOf s v) (legal : paramsLegal s.par = true) (hseq : v.frx.seq = .pdLow)
    (htmr : v.frx.tmr = s.par.tLow) (hsck : v.frx.sckQ = false) : GoingDown s.par v.frx 0 v := by
  obtain ⟨⟨-, hlow, -, -, hdev⟩, -⟩ := (paramsLegal_iff _).mp legal
  have hpos : 0 < s.par.tLow := hlow
  have block : DownPhases s.par v.frx 0 v.frx :=
    ⟨by rw [hseq, if_pos hpos], by rw [htmr, if_pos hpos, Nat.sub_zero], by simp [hsck, hpos.ne'], rfl, rfl⟩
  refine ⟨block, ?_, by omega⟩
  rw [e.dev, deviceEdge_h, hsck, if_neg Bool.false_ne_true]
  omega

theorem GoingDown.next (h : GoingDown p start j u) (e : EdgeOf u v) (hp : u.par = p) (legal : paramsLegal p = true)
    (hj : j + 1 < p.tLow + p.tPd) : GoingDown p start (j + 1) v := by
  obtain ⟨⟨-, -, -, -, hdev⟩, -⟩ := (paramsLegal_iff p).mp legal
  subst hp
  have hblock : DownPhases u.par start (j + 1) v.frx := by
    rw [e.busy h.block.busy]
    exact (h.block.next hj).flags
  have hhigh := h.high
  refine ⟨hblock, ?_, fun hh => ?_⟩
  · rw [e.dev, deviceEdge_h, hblock.sck]
    by_cases hrisen : u.par.tLow ≤ j + 1 <;> simp [hrisen] <;> omega
  · rw [e.dev, hblock.sck, decide_eq_true (by omega)]
    exact deviceEdge_off_of_high (by omega)

/-- POWER_DOWN completes with the clock high, which keeps the device down (R176, R177, K3). -/
theorem GoingDown.completes (h : GoingDown p start j u) (e : EdgeOf u v) (hp : u.par = p) (legal : paramsLegal p = true)
    (hj : j + 1 = p.tLow + p.tPd) (hop : start.op ≠ .resetDev) : DownCompleted v := by
  obtain ⟨⟨-, -, hpd, -⟩, -, -, -, hK3, -⟩ := (paramsLegal_iff p).mp legal
  subst hp
  obtain ⟨hseq, htmr, hsck⟩ := h.block.last hpd hj
  have hhigh := h.high
  have hv := e.busy h.block.busy
  rw [sequencer_pdHold_ends hseq htmr, pdHoldEnd_completes (h.block.op ▸ hop)] at hv
  have hidle : v.frx.seq = .idle := by rw [hv]; rfl
  have hsck' : v.frx.sckQ = true := by rw [hv]; exact hsck
  have hoff : v.dev.on = false := by
    rw [e.dev, hsck']
    exact deviceEdge_off_of_high (by omega)
  exact ⟨hidle, e.done h.block.busy hidle, by rw [hv]; rfl, by rw [hv]; rfl, by rw [hv]; rfl, hsck', hoff⟩

/-- RESET_DEV lowers the clock again, and by then the device is off, so that this wakes it (R130, R176, K3). -/
theorem GoingDown.settles (h : GoingDown p start j u) (e : EdgeOf u v) (hp : u.par = p) (legal : paramsLegal p = true)
    (hj : j + 1 = p.tLow + p.tPd) (hop : start.op = .resetDev) : Settling p start 0 v := by
  obtain ⟨⟨-, -, hpd, -⟩, -, -, -, hK3, -⟩ := (paramsLegal_iff p).mp legal
  subst hp
  obtain ⟨-, -, hsck⟩ := h.block.last hpd hj
  have hblock : SettlePhase u.par start 0 v.frx := by
    rw [e.busy h.block.busy]
    exact (h.block.settles hpd hj hop).flags
  have hoff : u.dev.on = false := h.off (by omega)
  refine ⟨hblock, ?_⟩
  obtain ⟨line, hwakes⟩ := deviceEdge_wakes (p := u.par) (draw := u.draws) hoff
  rw [e.dev, hsck, hblock.sck, hwakes]
  rfl

theorem Settling.busy (h : Settling p start j u) : u.frx.seq ≠ .idle := by simp [h.block.seq]

theorem Settling.next (h : Settling p start j u) (e : EdgeOf u v) (hp : u.par = p) (legal : paramsLegal p = true)
    (hj : j + 1 < p.tPu) : Settling p start (j + 1) v := by
  obtain ⟨⟨-, -, -, -, hdev⟩, -⟩ := (paramsLegal_iff p).mp legal
  subst hp
  have hblock : SettlePhase u.par start (j + 1) v.frx := by
    rw [e.busy h.busy]
    exact (h.block.next hj).flags
  refine ⟨hblock, ?_⟩
  rw [e.dev, hblock.sck]
  exact deviceEdge_on_of_low hdev h.on

/-- At gain 128 RESET_DEV completes as PU_SETTLE ends (R180, R186). -/
theorem Settling.completes (h : Settling p start j u) (e : EdgeOf u v) (hp : u.par = p) (legal : paramsLegal p = true)
    (hj : j + 1 = p.tPu) (hgain : start.gain = .g128) : ResetCompleted start v := by
  obtain ⟨⟨-, -, -, -, hdev⟩, -⟩ := (paramsLegal_iff p).mp legal
  subst hp
  have hheld := h.block.held
  have htmr := h.block.tmr
  have hgain' : u.frx.gain = .g128 := (gain_eq_of_held hheld).trans hgain
  have hv := e.busy h.busy
  rw [sequencer_puSettle_ends h.block.seq (by omega), puSettleEnd_completes (by simp [h.block.op]) hgain'] at hv
  have hidle : v.frx.seq = .idle := by rw [hv]; rfl
  have hsck : v.frx.sckQ = false := by rw [hv]; exact h.block.sck
  have hon : v.dev.on = true := by
    rw [e.dev, hsck]
    exact deviceEdge_on_of_low hdev h.on
  refine ⟨hidle, e.done h.busy hidle, by rw [hv]; rfl, by rw [hv]; rfl, by rw [hv]; exact h.block.devg, hsck, hon, ?_⟩
  rw [hv]
  exact congrArg Prod.snd hheld

end machine

/-! ## The runs -/

/-- A command accepted at the next edge of a run without `rst`: what the step leaves, as an edge of the run. -/
theorem accepts {s : State} {w : HostWord} {i : Instr} {block : Frx} {read : Word} {k : Nat} (hw : nextInput s = .access w)
    (hi : decode w = i) (hrst : noRstFor (k + 1) s) (h : Answers i s block read) :
    ∃ v, step s = .next v ∧ v.frx = block ∧ EdgeOf s v ∧ noRstFor k v := by
  have hexec : step s = exec i s := by rw [step, hw, presentInput, hi]
  have hstep := hexec.trans h
  obtain ⟨-, e⟩ := edgeOf_of_step hstep (nextInput_ne_rst hrst)
  exact ⟨_, hstep, rfl, e, e.noRstFor hrst⟩

/-- Settles O51: edge j is in PD_LOW before `T_LOW` and in PD_HOLD from there on, and the edge after the last completes. -/
theorem powerDownReachesTheDevice : Obligations.PowerDownReachesTheDevice := by
  unfold Obligations.PowerDownReachesTheDevice
  intro s w hinv hs hpwr hw hi hrst
  have legal := hinv.runnable.1
  obtain ⟨⟨-, hlow, -⟩, -⟩ := (paramsLegal_iff _).mp legal
  obtain ⟨s₁, hstep, hs₁, e₁, hrst₁⟩ := accepts hw hi hrst ((powerDownStartsItsLowPhase s hinv.runnable hs).1 hpwr)
  have hop : s₁.frx.op = .powerDown := by rw [hs₁]
  have run := runEdges_induction (e₁.runnable hinv.runnable) hrst₁
    (P := fun j u => (j < s.par.tLow + s.par.tPd → GoingDown s.par s₁.frx j u) ∧
      (j = s.par.tLow + s.par.tPd → DownCompleted u))
    ⟨fun _ => goingDown_start e₁ legal (by rw [hs₁]) (by rw [hs₁]) (by rw [hs₁]), fun hj => by omega⟩
    (fun j u v hj _ hpar hP e =>
      ⟨(hP.1 hj).next e (hpar.trans e₁.par) legal,
        fun hend => (hP.1 hj).completes e (hpar.trans e₁.par) legal hend (by simp [hop])⟩)
  refine ⟨fun j hj => ?_, ?_⟩
  · obtain ⟨u, hrun, -, -, -, hdown, -⟩ := run j hj.le
    exact ⟨u, (runEdges_cons hstep).trans hrun, (hdown hj).block.busy, (hdown hj).block.sck⟩
  · obtain ⟨t, hrun, -, -, -, -, hend⟩ := run _ le_rfl
    exact ⟨t, (runEdges_cons hstep).trans hrun, hend rfl⟩

/-- The run of RESET_DEV, j edges after its acceptance: the power-down half, the power-up half, and the completion (R182). -/
structure Resetting (p : Params) (start : Frx) (j : Nat) (u : State) : Prop where
  down : j < p.tLow + p.tPd → GoingDown p start j u
  settle : p.tLow + p.tPd ≤ j → j < p.tLow + p.tPd + p.tPu → Settling p start (j - (p.tLow + p.tPd)) u
  done : j = p.tLow + p.tPd + p.tPu → ResetCompleted start u

/-- Each edge of the run but the one after its last goes on in its half, or from the first half to the second. -/
theorem Resetting.next {p : Params} {start : Frx} {j : Nat} {u v : State} (h : Resetting p start j u) (e : EdgeOf u v)
    (hp : u.par = p) (legal : paramsLegal p = true) (hop : start.op = .resetDev) (hgain : start.gain = .g128)
    (hj : j < p.tLow + p.tPd + p.tPu) : Resetting p start (j + 1) v := by
  obtain ⟨⟨-, -, -, hpu, -⟩, -⟩ := (paramsLegal_iff p).mp legal
  refine ⟨fun hdown => (h.down (by omega)).next e hp legal hdown, fun hfrom hto => ?_, fun hend => ?_⟩
  · obtain hfirst | hlater := Nat.eq_or_lt_of_le hfrom
    · rw [hfirst, Nat.sub_self]
      exact (h.down (by omega)).settles e hp legal hfirst.symm hop
    · rw [Nat.sub_add_comm (by omega)]
      exact (h.settle (by omega) hj).next e hp legal (by omega)
  · exact (h.settle (by omega) hj).completes e hp legal (by omega) hgain

/-- Settles O52: the run's halves one after the other, from the acceptance on. -/
theorem resetDevAtGain128TakesItsPhases : Obligations.ResetDevAtGain128TakesItsPhases := by
  unfold Obligations.ResetDevAtGain128TakesItsPhases
  intro s w hinv hs hpwr hgain hw hi hrst
  have legal := hinv.runnable.1
  obtain ⟨⟨-, hlow, -⟩, -⟩ := (paramsLegal_iff _).mp legal
  obtain ⟨s₁, hstep, hs₁, e₁, hrst₁⟩ := accepts hw hi hrst ((resetDevStartsTheHalfItNeeds s hinv.runnable hs).1 hpwr)
  have hop : s₁.frx.op = .resetDev := by rw [hs₁]
  have hgain₁ : s₁.frx.gain = .g128 := by rw [hs₁]; exact hgain
  have run := runEdges_induction (P := Resetting s.par s₁.frx) (e₁.runnable hinv.runnable) hrst₁
    ⟨fun _ => goingDown_start e₁ legal (by rw [hs₁]) (by rw [hs₁]) (by rw [hs₁]),
      fun _ _ => by omega, fun _ => by omega⟩
    (fun j u v hj _ hpar h e => h.next e (hpar.trans e₁.par) legal hop hgain₁ hj)
  refine ⟨fun j u hj hrun => ?_, ?_⟩
  · obtain ⟨u', hrun', -, -, -, h⟩ := run j hj.le
    rw [runEdges_cons hstep] at hrun
    obtain rfl := Host.Outcome.next.inj (hrun.symm.trans hrun')
    obtain hdown | hsettle := lt_or_ge j (s.par.tLow + s.par.tPd)
    · exact (h.down hdown).block.busy
    · exact (h.settle hsettle hj).busy
  · obtain ⟨t, hrun, -, -, -, h⟩ := run _ le_rfl
    obtain ⟨hidle, hdone, herr, hactive, hdevg, hsck, hon, hregs⟩ := h.done rfl
    have hkept : sampleRegisters t.frx = sampleRegisters s.frx := hregs.trans (by rw [hs₁]; rfl)
    simp only [sampleRegisters, Prod.mk.injEq] at hkept
    exact ⟨t, (runEdges_cons hstep).trans hrun, hidle, hdone, herr, hactive, hdevg, hsck, hon, hkept⟩

end Sys2Proof.Proofs
end

section
/-! PROOFS of 60_exceptions.md. The interrupt level. -/

namespace Sys2Proof.Proofs

open Sys2Proof.Machine Sys2Proof.Safety

/-- The port `irq` is high exactly with both of its sources (R210). -/
theorem irq_eq_true_iff (s : State) : irq s = true ↔ s.frx.irqen = true ∧ s.frx.done = true := by
  simp only [irq, irqLevel, Bool.and_eq_true]

/-- Settles O47: DONE is 0 while a command runs (R97), and `irq` needs DONE. -/
theorem interruptLevelFollowsDone : Obligations.InterruptLevelFollowsDone := by
  unfold Obligations.InterruptLevelFollowsDone
  refine fun s => ⟨irq_eq_true_iff s, fun hinv busy => ?_⟩
  obtain ⟨hdone, -⟩ := hinv.block.flags busy
  refine Bool.eq_false_iff.mpr fun hirq => ?_
  obtain ⟨-, hset⟩ := (irq_eq_true_iff s).mp hirq
  exact Bool.false_ne_true (hdone.symm.trans hset)

end Sys2Proof.Proofs
end

section
/-! PROOFS of 70_reset_and_hazards.md. What a reset edge leaves, and that no run begins without one. -/

namespace Sys2Proof.Proofs

open Sys2Proof.Machine Sys2Proof.Safety Sys2Proof.Laws

/-! ## The reset state -/

/-- Entry S of the reset block's levels is the last stage of its chain, and R230 fills that with the level that is not READY. -/
theorem din_reset {p : Params} (line : Bool) (hS : 1 ≤ p.syncStages) : din p line (Frx.reset p) = !p.readyLevel := by
  have hlast : (List.replicate p.syncStages (!p.readyLevel))[p.syncStages - 1]? = some (!p.readyLevel) :=
    List.getElem?_replicate_of_lt (Nat.sub_one_lt_of_lt hS)
  exact din_eq_of_level (by rwa [List.getElem?_cons, if_neg (Nat.ne_of_gt hS)])

/-- Settles O8: the next state is `resetState`, and its STATUS is the word of the reset block. -/
theorem resetEdgeGivesEveryResetValue : Obligations.ResetEdgeGivesEveryResetValue := by
  unfold Obligations.ResetEdgeGivesEveryResetValue
  intro s hp
  have hstatus : rdata (resetState s) .status =
      statusWord (din s.par (resetDevice s).line (Frx.reset s.par)) (Frx.reset s.par) := rfl
  rw [resetEdge_next_iff.mpr ⟨hp, rfl⟩]
  refine ⟨resetState s, rfl, rfl, rfl, rfl, ?_, rfl, ?_, fun hS => ?_⟩ <;> rw [hstatus]
  · exact statusWord_busy _ _
  · exact statusWord_sck _ _
  · exact (statusWord_din _ _).trans (din_reset _ hS)

/-- Settles O9: parameter set B is legal, its reset block has the invariant, and so has a device drawn with no stray levels. -/
theorem resetStateHasTheInvariant : Obligations.ResetStateHasTheInvariant := by
  unfold Obligations.ResetStateHasTheInvariant
  have hp : paramsLegal Config.setB = true := by decide
  exact ⟨⟨hp, rfl⟩, reset_blockInv hp, drawn_inv hp (Nat.zero_le _)⟩

/-! ## The first edge of a run -/

/-- A clock edge asks first for legal parameters, then for a reset edge behind it (R232). -/
theorem clockEdge_refusesRun_iff {host : Frx → Frx} {got : Word} {s : State} :
    clockEdge host got s = .refused .runBeganWithoutReset ↔ paramsLegal s.par = true ∧ s.resetSeen = false := by
  unfold clockEdge
  cases paramsLegal s.par <;> cases s.resetSeen <;> simp

theorem exec_refusesRun_iff (i : Instr) {s : State} :
    exec i s = .refused .runBeganWithoutReset ↔ paramsLegal s.par = true ∧ s.resetSeen = false := by
  rw [exec_is_clockEdge, clockEdge_refusesRun_iff]

/-- Every input but a reset edge is a clock edge, so all of them meet this refusal alike. -/
theorem presentInput_refusesRun_iff {x : EdgeInput} (hx : x ≠ .rst) {s : State} :
    presentInput x s = .refused .runBeganWithoutReset ↔ paramsLegal s.par = true ∧ s.resetSeen = false := by
  cases x with
  | rst => exact absurd rfl hx
  | idle => exact clockEdge_refusesRun_iff
  | access word => exact exec_refusesRun_iff (decode word)
  | poll field value => exact pollEdge_refused_iff.trans (exec_refusesRun_iff _)

/-- Settles O11: a step presents the next input, and a reset edge's next state has seen it. -/
theorem runsBeginWithAResetEdge : Obligations.RunsBeginWithAResetEdge := by
  unfold Obligations.RunsBeginWithAResetEdge
  intro s hp hunseen
  refine ⟨fun hx => (presentInput_refusesRun_iff hx).mpr ⟨hp, hunseen⟩, fun hx => ⟨resetState s, ?_, rfl⟩⟩
  calc step s = resetEdge s := by rw [step, hx, presentInput]
    _ = .next (resetState s) := resetEdge_next_iff.mpr ⟨hp, rfl⟩

end Sys2Proof.Proofs
end
